-- ==== Sys2Proof/Word.lean ====
section
/-! DEFINITION. The plainest words of the ZL-606: a byte of the control link, and the small index types by which the guide
numbers lanes, cues and inputs. Instants and lengths of time are plain numbers of ticks of the 27 MHz timebase (section 7.1);
slots of the Item Pool (0..2,047) and of the Symbol Table (0..1,023), text ids, blocks and granules are plain numbers too. -/
namespace Sys2Proof

/-- A byte of the control link, and a glyph code (R115, R166). -/
abbrev Byte := BitVec 8

/-- Lanes are numbered 0 to 5 (00_scope, Lanes and cues). -/
abbrev LaneId := Fin 6

/-- The four cues of a lane are numbered 0 to 3. -/
abbrev CueId := Fin 4

/-- The four GPI inputs. -/
abbrev GpiId := Fin 4

/-- A set of lanes: bit n names lane n (R64, R69). -/
abbrev LaneSet := BitVec 6

end Sys2Proof
end

