-- ==== Sys2Proof/Config.lean ====
section
/-! DEFINITION. The constants the guide fixes for this part and revision. Every value stands in a rule; the guide leaves
no value of the part open to an implementation, so no free value (opaque constant) is declared here. -/
namespace Sys2Proof.Config

/-- The largest travel, 2^48 − 1 steps (R2, R6). -/
def maxTravel : Nat := 2 ^ 48 - 1

/-- Largest velocity and cruise velocity (R2). -/
def maxVelocity : Nat := 4095

/-- Largest acceleration (R2). -/
def maxAccel : Nat := 1023

/-- Visible items of one lane at most (R34). -/
def maxVisible : Nat := 64

/-- Item records of the pool (R29). -/
def itemSlots : Nat := 2048

/-- Generations of a slot (R29). -/
def generations : Nat := 32

/-- Symbol Table slots (R75). -/
def symbolSlots : Nat := 1024

/-- Largest price (R75). -/
def maxPrice : Nat := 999999999

/-- The wire code of an absent price or reference (R78, R89). -/
def absentPrice : Nat := 0xFFFFFFFF

/-- Handles of the refresh queue at most (R107). -/
def refreshSlots : Nat := 64

/-- Glyph entries of a quote rendering at most (R95). -/
def maxGlyphEntries : Nat := 48

/-- Text Pool blocks and the codes of one block (R115). -/
def textBlocks : Nat := 256
def blockCodes : Nat := 32
def maxTextLength : Nat := 1024

/-- Glyph Store granules and the bytes of one granule (R122). -/
def granules : Nat := 8192
def granuleBytes : Nat := 64

/-- Debounce time of a GPI input: one millisecond (R138). -/
def debounceTicks : Nat := 27000

/-- The inter-byte limit of the Link Port: 5 ms (R165, R169). -/
def interByteTicks : Nat := 135000

/-- Inbound frames and outbound slots at most (R170, R171). -/
def inboundSlots : Nat := 4
def outboundSlots : Nat := 8

/-- The start marker of every frame (R166). -/
def marker : Byte := 0xC3#8

/-- The position that stands for the front of the queued part (R30, R45). -/
def frontPosition : Nat := 0xFFFF

end Sys2Proof.Config
end

