-- ==== Sys2Proof/Syntax.lean ====
section
/-! DEFINITION. The commands of the ZL-606: one constructor for each row of spec/opcode_table.json.

A REQUEST row carries the tag and the body of its request frame (R166); the fields of the body are read by the
request's own rule in the order and widths it lists (R174). An EVENT row carries what the event brings: a byte, an input,
a lane, a slot, the ticks that pass before it comes, and, where the guide leaves an order open, the order itself.

Two operands are the model's own (notes/assumptions/3 and 4): elapsed is the number of 27 MHz ticks between the
event before and this one, and order / late say in which order things that the guide lets come together do come.

POWER_ON_RESET carries the change of the RESET input: the ticks that pass before it and the level RESET takes
(notes/assumptions/2). -/
namespace Sys2Proof

/-- One thing that happens while a frame start is answered (R130). The guide fixes no order between the six Lane Units
and the Symbol Table, nor between a frame start and a freeze that reach one lane together (R147). -/
inductive FrameAct where
  /-- the frame start reaches lane n, which answers it (R5) -/
  | lane (n : LaneId)
  /-- the frame start reaches the Symbol Table, which makes its staleness check (R86) -/
  | symbols
  /-- the output freeze of this frame start, when there is one, reaches lane n (R147) -/
  | freeze (n : LaneId)
  deriving DecidableEq, Repr

/-- An order in which the frame start and its freeze reach the blocks. Acts that are left out come after those listed. -/
abbrev FrameOrder := List FrameAct

/-- A change of the RESET input: it comes elapsed ticks after the event before, and RESET is then asserted or released. -/
structure ResetEdge where
  elapsed : Nat
  asserted : Bool
  deriving DecidableEq, Repr

inductive Instr where
  -- requests of the control link (R172)
  | ident (tag : Byte) (body : List Byte)
  | deviceReset (elapsed : Nat) (tag : Byte) (body : List Byte)
  | eventEnable (tag : Byte) (body : List Byte)
  | eventPriority (tag : Byte) (body : List Byte)
  | eventSummary (tag : Byte) (body : List Byte)
  | eventNext (tag : Byte) (body : List Byte)
  | eventRead (tag : Byte) (body : List Byte)
  | attnMask (tag : Byte) (body : List Byte)
  | laneSetup (tag : Byte) (body : List Byte)
  | laneOff (tag : Byte) (body : List Byte)
  | laneStart (tag : Byte) (body : List Byte)
  | laneStop (late : LaneSet) (tag : Byte) (body : List Byte)
  | laneSpeed (tag : Byte) (body : List Byte)
  | laneStage (tag : Byte) (body : List Byte)
  | laneReset (tag : Byte) (body : List Byte)
  | laneQuery (tag : Byte) (body : List Byte)
  | itemAppend (tag : Byte) (body : List Byte)
  | itemInsert (tag : Byte) (body : List Byte)
  | itemReplace (tag : Byte) (body : List Byte)
  | itemRemove (tag : Byte) (body : List Byte)
  | itemPasses (tag : Byte) (body : List Byte)
  | runClear (tag : Byte) (body : List Byte)
  | itemQuery (tag : Byte) (body : List Byte)
  | runList (tag : Byte) (body : List Byte)
  | holdRelease (tag : Byte) (body : List Byte)
  | cueSet (tag : Byte) (body : List Byte)
  | cueClear (tag : Byte) (body : List Byte)
  | cueQuery (tag : Byte) (body : List Byte)
  | symDefine (tag : Byte) (body : List Byte)
  | symPrice (tag : Byte) (body : List Byte)
  | symReference (tag : Byte) (body : List Byte)
  | symHalt (tag : Byte) (body : List Byte)
  | symResume (tag : Byte) (body : List Byte)
  | symRemove (tag : Byte) (body : List Byte)
  | symQuery (tag : Byte) (body : List Byte)
  | symScan (tag : Byte) (body : List Byte)
  | classSetup (tag : Byte) (body : List Byte)
  | templateSet (tag : Byte) (body : List Byte)
  | templateQuery (tag : Byte) (body : List Byte)
  | textCreate (tag : Byte) (body : List Byte)
  | textWrite (tag : Byte) (body : List Byte)
  | textFree (tag : Byte) (body : List Byte)
  | faceSetup (tag : Byte) (body : List Byte)
  | glyphLoad (tag : Byte) (body : List Byte)
  | storeQuery (tag : Byte) (body : List Byte)
  | timingSetup (elapsed : Nat) (order : FrameOrder) (tag : Byte) (body : List Byte)
  | timingQuery (tag : Byte) (body : List Byte)
  | gpiSetup (tag : Byte) (body : List Byte)
  | paletteSet (tag : Byte) (body : List Byte)
  | outputSetup (tag : Byte) (body : List Byte)
  | outputResume (tag : Byte) (body : List Byte)
  | unknownKind (kind : Byte) (tag : Byte) (body : List Byte)
  -- the link
  | decoderTake
  | receiveByte (elapsed : Nat) (byte : Byte)
  | byteError (elapsed : Nat)
  | interByteTimeout
  | replySent
  -- resets, timers and pins
  | powerOnReset (edge : ResetEdge)
  | framePeriodExpiry (order : FrameOrder)
  | windowExpiry (order : FrameOrder)
  | referencePulse (elapsed : Nat) (order : FrameOrder)
  -- operations inside the part
  | armedStart (lane : LaneId)
  | holdDwellExpiry (lane : LaneId)
  | symbolStale (slot : Nat)
  | compositionComplete
  | refreshTake
  | refreshComplete
  | gpiLevelChange (elapsed : Nat) (input : GpiId)
  | gpiDebounceExpiry (input : GpiId) (late : LaneSet)
  deriving DecidableEq, Repr

end Sys2Proof
end

