-- ==== Sys2Proof/Machine/State.lean ====
section
/-! DEFINITION. The state of the ZL-606 as plain data, block by block (00_scope, Block overview), the reasons a step can
stop, and the state after power-on reset. A collection the guide indexes by a sparse number (item slots, symbol slots,
text ids, glyph codes) is a list of (number, record) pairs with rising numbers; a fixed row of like things is a Vector. -/
namespace Sys2Proof.Machine

/-- A sparse table: (number, record) pairs, numbers strictly rising. -/
abbrev Table (α : Type) := List (Nat × α)

/-! ### Lanes (chapter 1) -/

/-- The eight lane states (R4). -/
inductive LaneState where
  | off | idle | armed | run | brake | held | stopped | frozen
  deriving DecidableEq, Repr

/-- How a lane in BRAKE is slowing (R2); an absent brake kind is none. -/
inductive BrakeKind where
  | target | ramp
  deriving DecidableEq, Repr

/-- What a running lane does when its run list runs out (R1). -/
inductive OnEmpty where
  | runBlank | stop
  deriving DecidableEq, Repr

/-- What happens to a quote that cannot be formatted at entry (R1). -/
inductive FaultPolicy where
  | skip | blank
  deriving DecidableEq, Repr

/-- The set-up fields of a lane (R1). -/
structure LaneSetup where
  bandTop : Nat
  bandHeight : Nat
  x0 : Nat
  width : Nat
  face : Fin 4
  template : Fin 8
  gap : Nat
  holdPos : Nat
  background : Fin 16
  smoothing : Bool
  onEmpty : OnEmpty
  fault : FaultPolicy
  deriving DecidableEq, Repr

/-- The power-on column of R1. -/
def LaneSetup.powerOn : LaneSetup :=
  { bandTop := 0, bandHeight := 16, x0 := 0, width := 1920, face := 0, template := 0, gap := 16, holdPos := 0,
    background := 0, smoothing := true, onEmpty := .runBlank, fault := .blank }

/-- A cruise velocity and an acceleration held ready for a cue to load (R2, R25). -/
structure SpeedPair where
  cruise : Nat
  accel : Nat
  deriving DecidableEq, Repr

/-- The kind of a target: a hold target carries the hold dwell of its item, a stop target its cue (R3). -/
inductive TargetKind where
  | hold (dwell : Nat)
  | stop (cue : CueId)
  deriving DecidableEq, Repr

/-- A travel at which the lane must come exactly to rest (R3). -/
structure Target where
  travel : Nat
  kind : TargetKind
  deriving DecidableEq, Repr

/-- The condition an ARMED lane waits for (R69). -/
inductive ArmCondition where
  | gpi (input : GpiId)
  | sync
  | stopOf (mask : LaneSet)
  deriving DecidableEq, Repr

/-- The stationary state an ARMED lane came from (R69). -/
inductive ReturnState where
  | idle | stopped
  deriving DecidableEq, Repr

/-- An arm condition with its return state (R2, R69). `met` is the model's own: a cause that meets the condition has
happened and is still to reach the lane (R74, notes/assumptions/4). -/
structure Arm where
  condition : ArmCondition
  returns : ReturnState
  met : Bool
  deriving DecidableEq, Repr

inductive CueSource where
  | travel | entries | runFrames | itemEntry
  deriving DecidableEq, Repr

inductive CueMethod where
  | reach | cross
  deriving DecidableEq, Repr

inductive CueAction where
  | none | stopNow | stopRamp | stopAt | loadStaged
  deriving DecidableEq, Repr

/-- A cue record (R55). -/
structure Cue where
  source : CueSource
  method : CueMethod
  value : Nat
  action : CueAction
  syncMask : LaneSet
  repeats : Bool
  armed : Bool
  deriving DecidableEq, Repr

/-- The power-on column of R55. -/
def Cue.powerOn : Cue :=
  { source := .travel, method := .reach, value := 0, action := .none, syncMask := 0, repeats := false, armed := false }

/-- A lane: its set-up record (R1), motion record (R2), target list (R3), arm condition, run list (R34: the visible items
first, then the queued ones) and cue records (R55). The run list holds slots of the Item Pool; the handle of a slot is
given by the pool (R29). -/
structure Lane where
  setup : LaneSetup
  state : LaneState
  travel : Nat
  velocity : Nat
  cruise : Nat
  accel : Nat
  staged : Option SpeedPair
  nextEntry : Nat
  brake : Option BrakeKind
  clearing : Bool
  dwell : Nat
  entries : BitVec 32
  runFrames : BitVec 32
  targets : List Target
  arm : Option Arm
  visible : List Nat
  queued : List Nat
  cues : Vector Cue 4
  deriving DecidableEq, Repr

/-- The power-on columns of R1, R2 and R55. -/
def Lane.powerOn : Lane :=
  { setup := LaneSetup.powerOn, state := .off, travel := 0, velocity := 0, cruise := 128, accel := 16, staged := none,
    nextEntry := 0, brake := none, clearing := false, dwell := 0, entries := 0, runFrames := 0, targets := [],
    arm := none, visible := [], queued := [], cues := Vector.replicate 4 Cue.powerOn }

/-! ### Items (chapter 2) -/

/-- A symbol code as its 8 bytes (R76). -/
abbrev SymCode := List Byte

/-- What an item shows (R32). A QUOTE names its symbol by code and holds the link to the symbol's slot. -/
inductive Content where
  | quote (code : SymCode) (link : Nat)
  | text (id : Nat)
  | mark (code : Byte)
  deriving DecidableEq, Repr

/-- One entry of a quote rendering (R103): a glyph, or a gap of a width. -/
inductive GlyphEntry where
  | glyph (code : Byte)
  | gap (width : Nat)
  deriving DecidableEq, Repr

/-- The field kinds of a template (R93). -/
inductive FieldKind where
  | symbol | price | change | percent | arrow | gap | literal
  deriving DecidableEq, Repr

/-- What one field of the template contributed to a rendering. The kinds are kept because R111 compares PRICE fields. -/
structure RenderedField where
  kind : FieldKind
  entries : List GlyphEntry
  deriving DecidableEq, Repr

/-- A cell's rendering (R33). -/
inductive Rendering where
  | quote (fields : List RenderedField)
  | text (id : Nat)
  | mark (code : Byte)
  deriving DecidableEq, Repr

/-- The rendered style of a cell (R33). -/
inductive Style where
  | up | down | flat | halted | noPrice | ink
  deriving DecidableEq, Repr

/-- UP or DOWN: the direction of a flash (R33). -/
inductive Direction where
  | up | down
  deriving DecidableEq, Repr

/-- The cell of a VISIBLE item (R33). -/
structure Cell where
  entry : Nat
  width : Nat
  rendering : Rendering
  style : Style
  flash : Nat
  flashDir : Direction
  forcedStale : Bool
  deriving DecidableEq, Repr

/-- An item record (R32). Its handle is its slot with the slot's generation; it is VISIBLE while it has a cell. -/
structure Item where
  lane : LaneId
  content : Content
  passes : Nat
  holdDwell : Option Nat
  minWidth : Nat
  ink : Fin 16
  cell : Option Cell
  deriving DecidableEq, Repr

/-- The Item Pool (R29): a slot is allocated while it has an item; a slot not listed in `generations` has generation 0. -/
structure Pool where
  items : Table Item
  generations : Table Nat
  deriving DecidableEq, Repr

/-! ### Symbols (chapter 4) -/

/-- A symbol record (R75). The map of R76 from code to slot is read off the records. -/
structure SymbolRec where
  code : SymCode
  cls : Fin 8
  decimals : Nat
  price : Option Nat
  previous : Option Nat
  reference : Option Nat
  lastSeq : Option (BitVec 16)
  halted : Bool
  stale : Bool
  lastUpdate : BitVec 32
  refCount : Nat
  viewList : List Nat
  deriving DecidableEq, Repr

/-- A class record (R77). -/
structure ClassRec where
  staleTimeout : Nat
  flashLength : Nat
  deriving DecidableEq, Repr

/-! ### Formatter (chapter 5) -/

/-- A field of a template (R93). -/
inductive TemplateField where
  | symbol | price | change | percent | arrow
  | gap (width : Nat)
  | literal (codes : List Byte)
  deriving DecidableEq, Repr

/-- The ten glyph codes of a template's numeral map (R93). -/
structure NumeralMap where
  digit0 : Byte
  point : Byte
  separator : Byte
  plus : Byte
  minus : Byte
  percent : Byte
  up : Byte
  down : Byte
  flat : Byte
  noValue : Byte
  deriving DecidableEq, Repr

/-- The eight palette indices of a template's colour map (R93). -/
structure ColourMap where
  up : Fin 16
  down : Fin 16
  flat : Fin 16
  halted : Fin 16
  stale : Fin 16
  flashUp : Fin 16
  flashDown : Fin 16
  noPrice : Fin 16
  deriving DecidableEq, Repr

/-- A quote template (R93). -/
structure Template where
  fields : List TemplateField
  numerals : NumeralMap
  halt : List Byte
  grouping : Bool
  colours : ColourMap
  deriving DecidableEq, Repr

/-- The power-on template of R93: one SYMBOL field, every code and index 0, the halt literal a single code 0. -/
def Template.powerOn : Template :=
  { fields := [.symbol],
    numerals := { digit0 := 0, point := 0, separator := 0, plus := 0, minus := 0, percent := 0, up := 0, down := 0,
                  flat := 0, noValue := 0 },
    halt := [0], grouping := false,
    colours := { up := 0, down := 0, flat := 0, halted := 0, stale := 0, flashUp := 0, flashDown := 0, noPrice := 0 } }

/-- The refresh formatting in flight (R108): its item, the values read at the take, the new rendering, style and width,
and the overtaken and discarded marks (R109). -/
structure Formatting where
  item : Nat
  price : Option Nat
  previous : Option Nat
  reference : Option Nat
  decimals : Nat
  halted : Bool
  fields : List RenderedField
  style : Style
  width : Nat
  overtaken : Bool
  discarded : Bool
  deriving DecidableEq, Repr

/-- The Formatter: templates (R93), refresh queue (R107) and the formatting in flight (R108). -/
structure Formatter where
  templates : Vector Template 8
  queue : List Nat
  inFlight : Option Formatting
  deriving DecidableEq, Repr

/-! ### Text Pool and Glyph Store (chapter 6) -/

/-- A text record (R115); its length is the number of its codes. -/
structure TextRec where
  blocks : List Nat
  codes : List Byte
  refCount : Nat
  viewCount : Nat
  deriving DecidableEq, Repr

/-- A glyph record (R121). Bytes received is the number of image bytes held; the glyph is COMPLETE when it equals
bytes expected. -/
structure Glyph where
  advance : Nat
  expected : Nat
  granules : List Nat
  image : List Byte
  deriving DecidableEq, Repr

/-- A face record (R121). -/
structure Face where
  height : Nat
  defaultAdvance : Nat
  glyphs : Table Glyph
  deriving DecidableEq, Repr

/-- The power-on column of R121. -/
def Face.powerOn : Face := { height := 16, defaultAdvance := 8, glyphs := [] }

/-! ### Frame Clock and GPI inputs (chapter 7) -/

inductive ClockSource where
  | free | reference
  deriving DecidableEq, Repr

inductive LockState where
  | free | seek | locked | holdover
  deriving DecidableEq, Repr

/-- The Frame Clock (R129). `now` is the 27 MHz timebase itself: the tick of the latest event. -/
structure FrameClock where
  now : Nat
  source : ClockSource
  period : Nat
  relock : Nat
  lock : LockState
  consistent : Nat
  previousPulse : Option Nat
  origin : Nat
  counter : BitVec 32
  deriving DecidableEq, Repr

/-- The power-on column of R129, with RESET released at the given tick. -/
def FrameClock.powerOn (release : Nat) : FrameClock :=
  { now := release, source := .free, period := 900900, relock := 16, lock := .free, consistent := 0,
    previousPulse := none, origin := release, counter := 0 }

inductive EdgeKind where
  | none | rise | fall | both
  deriving DecidableEq, Repr

/-- A GPI input: the level at the pin, the counted level, the tick at which a running debounce timer started (R138) and
the edge kind (R140). -/
structure Gpi where
  level : Bool
  counted : Bool
  debounce : Option Nat
  edge : EdgeKind
  deriving DecidableEq, Repr

/-- R138 and R140 at power-on, for an input standing at a level. -/
def Gpi.powerOn (level : Bool) : Gpi := { level := level, counted := level, debounce := none, edge := .none }

/-! ### Compositor (chapter 8) -/

/-- A palette entry (R141). -/
structure PaletteEntry where
  y : Nat
  cb : Nat
  cr : Nat
  gain : Nat
  deriving DecidableEq, Repr

inductive CompositionState where
  | idle | composing | halted
  deriving DecidableEq, Repr

inductive OverrunPolicy where
  | repeatFrame | freeze
  deriving DecidableEq, Repr

/-- A latched cell (R143). -/
structure CellShot where
  entry : Nat
  width : Nat
  rendering : Rendering
  colour : Fin 16
  deriving DecidableEq, Repr

/-- A latched lane (R143). -/
structure LaneShot where
  lane : LaneId
  bandTop : Nat
  bandHeight : Nat
  x0 : Nat
  width : Nat
  face : Fin 4
  background : Fin 16
  smoothing : Bool
  travel : Nat
  cells : List CellShot
  deriving DecidableEq, Repr

/-- The frame snapshot (R143). -/
structure Snapshot where
  palette : Vector PaletteEntry 16
  lanes : List LaneShot
  deriving DecidableEq, Repr

/-- A run of columns of a drawn cell (R105): a glyph image of an advance, or columns of coverage 0. -/
inductive DrawnEntry where
  | image (advance : Nat) (bytes : List Byte)
  | blank (width : Nat)
  deriving DecidableEq, Repr

/-- A drawn cell: its left edge in steps, its reserved width, its colour entry and its columns (R152). -/
structure DrawnCell where
  left : Int
  width : Nat
  ink : PaletteEntry
  entries : List DrawnEntry
  deriving DecidableEq, Repr

/-- A drawn band (R151, R152). -/
structure DrawnLane where
  lane : LaneId
  bandTop : Nat
  bandHeight : Nat
  faceHeight : Nat
  x0 : Nat
  width : Nat
  smoothing : Bool
  ground : PaletteEntry
  cells : List DrawnCell
  deriving DecidableEq, Repr

/-- A picture, held as what is drawn in it: every glyph image and every colour it needs. Its 1,920 × 1,080 pixels are
computed from it by R151 to R153 (Machine/Compose.lean); the empty picture draws nothing (notes/assumptions/7). -/
abbrev Picture := List DrawnLane

/-- The Compositor (R141, R142). -/
structure Compositor where
  palette : Vector PaletteEntry 16
  policy : OverrunPolicy
  state : CompositionState
  inFlight : Option Snapshot
  output : Picture
  deriving DecidableEq, Repr

/-- The power-on column of R154. -/
def Compositor.powerOn : Compositor :=
  { palette := Vector.replicate 16 { y := 0, cb := 0, cr := 0, gain := 0 }, policy := .repeatFrame, state := .idle,
    inFlight := none, output := [] }

/-! ### Event Unit (chapter 9) -/

/-- A factor group (R155). -/
structure Group where
  pending : BitVec 16
  enable : BitVec 16
  level : Fin 4
  deriving DecidableEq, Repr

/-- The Event Unit: ten groups and the attention mask (R155). The ATTN line is computed (R162). -/
structure EventUnit where
  groups : Vector Group 10
  mask : Bool
  deriving DecidableEq, Repr

/-- The power-on column of R164: levels TIMING 3, OUTPUT 3, lanes 2, SYMBOL 1, LINK 0. -/
def EventUnit.powerOn : EventUnit :=
  { groups := (#v[3, 3, 2, 2, 2, 2, 2, 2, 1, 0] : Vector (Fin 4) 10).map fun l => { pending := 0, enable := 0, level := l },
    mask := false }

/-! ### Control link (chapter 10) -/

/-- A frame without its marker, length and check (R166): a request in the inbound queue or in hand, or a reply. -/
structure Frame where
  kind : Byte
  tag : Byte
  body : List Byte
  deriving DecidableEq, Repr

/-- The receiver (R167): hunting, or in frame with its frame buffer and the tick its inter-byte timer was started. -/
inductive Receiver where
  | hunting
  | inFrame (buffer : List Byte) (timer : Nat)
  deriving DecidableEq, Repr

/-- The Link Port and the Request Decoder (R170 to R172). `decoder` is the request in hand, none while the Decoder is
free; a Decoder that holds a request has one outbound slot reserved. -/
structure Link where
  receiver : Receiver
  inbound : List Frame
  outbound : List Frame
  sending : Bool
  decoder : Option Frame
  deriving DecidableEq, Repr

/-- The power-on column of R178. -/
def Link.powerOn : Link := { receiver := .hunting, inbound := [], outbound := [], sending := false, decoder := none }

/-! ### The machine -/

/-- The whole part, and the commands that wait for it, first in first out. `inReset` is the level of the RESET input: the
part stands in power-on reset while it is asserted (R165, R178). -/
structure State where
  inReset : Bool
  link : Link
  clock : FrameClock
  gpi : Vector Gpi 4
  lanes : Vector Lane 6
  pool : Pool
  symbols : Table SymbolRec
  classes : Vector ClassRec 8
  formatter : Formatter
  texts : Table TextRec
  faces : Vector Face 4
  compositor : Compositor
  events : EventUnit
  pending : List Instr
  deriving DecidableEq, Repr

/-- The part stops with no fault: every event and every request has a next state in the guide. -/
inductive Fault where
  deriving DecidableEq, Repr

/-- Why a step can be refused. -/
inductive Refusal where
  /-- Raised by an arm of exec whose command has no meaning yet (none at present). Safe: nothing is claimed of it. -/
  | notModelled (mnemonic : String)
  deriving DecidableEq, Repr

/-- The part at a change of the RESET input, with the level it takes, the tick of the change, the levels then standing at
the GPI inputs and the commands that wait: the power-on values of every chapter. -/
def State.powerOn (asserted : Bool) (tick : Nat) (levels : Vector Bool 4) (waiting : List Instr) : State :=
  { inReset := asserted, link := Link.powerOn, clock := FrameClock.powerOn tick, gpi := levels.map Gpi.powerOn,
    lanes := Vector.replicate 6 Lane.powerOn, pool := { items := [], generations := [] }, symbols := [],
    classes := Vector.replicate 8 { staleTimeout := 0, flashLength := 0 },
    formatter := { templates := Vector.replicate 8 Template.powerOn, queue := [], inFlight := none },
    texts := [], faces := Vector.replicate 4 Face.powerOn, compositor := Compositor.powerOn,
    events := EventUnit.powerOn, pending := waiting }

/-- The machine right after power-on reset, with all four GPI inputs low (DESIGN CHOICE, notes/assumptions/2), RESET
released at tick 0 and no command waiting. -/
def State.reset : State := State.powerOn false 0 (Vector.replicate 4 false) []

end Sys2Proof.Machine
end

