-- ==== Sys2Proof/Machine/Flags.lean ====
section
/-! DEFINITION. Factors, their groups and places, how a raised factor is recorded, and the ATTN line (R155, R156, R162). -/
namespace Sys2Proof.Machine

/-- The factors of R155. -/
inductive Factor where
  | frame | locked | gpiEdge (n : GpiId) | refLost
  | resumed | overrun
  | started (l : LaneId) | stopped (l : LaneId) | drained (l : LaneId) | holdReached (l : LaneId)
  | holdReleased (l : LaneId) | cue (l : LaneId) (k : CueId) | entry (l : LaneId) | retired (l : LaneId)
  | formatFault (l : LaneId) | updateHeld (l : LaneId) | shortBrake (l : LaneId) | refreshDropped (l : LaneId)
  | frozen (l : LaneId)
  | stale | fresh
  | badFrame | queueFull
  deriving DecidableEq, Repr

/-- A group code 0..9 (R155). -/
abbrev GroupId := Fin 10

/-- The group of lane n has code n + 2 (R155). -/
def laneGroup (l : LaneId) : GroupId := ⟨l.val + 2, by omega⟩

/-- The group of a factor (R155). -/
def Factor.group : Factor → GroupId
  | .frame | .locked | .gpiEdge _ | .refLost => 0
  | .resumed | .overrun => 1
  | .started l | .stopped l | .drained l | .holdReached l | .holdReleased l | .cue l _ | .entry l | .retired l
  | .formatFault l | .updateHeld l | .shortBrake l | .refreshDropped l | .frozen l => laneGroup l
  | .stale | .fresh => 8
  | .badFrame | .queueFull => 9

/-- The place of a factor in its group's factor sets (R155). -/
def Factor.place : Factor → Nat
  | .frame => 0 | .locked => 1 | .gpiEdge n => 2 + n.val | .refLost => 15
  | .resumed => 0 | .overrun => 15
  | .started _ => 0 | .stopped _ => 1 | .drained _ => 2 | .holdReached _ => 3 | .holdReleased _ => 4
  | .cue _ k => 5 + k.val | .entry _ => 9 | .retired _ => 10 | .formatFault _ => 11 | .updateHeld _ => 12
  | .shortBrake _ => 13 | .refreshDropped _ => 14 | .frozen _ => 15
  | .stale => 0 | .fresh => 1
  | .badFrame => 0 | .queueFull => 1

/-- The factor set that holds one factor. -/
def Factor.bit (f : Factor) : BitVec 16 := 1#16 <<< f.place

/-- The places of a group's event factors (R155). -/
def eventPlaces (g : GroupId) : BitVec 16 :=
  match g.val with
  | 0 => 0x003F | 1 => 0x0001 | 8 => 0x0003 | 9 => 0x0000 | _ => 0x1FFF

/-- The places of a group's error factors (R155). -/
def errorPlaces (g : GroupId) : BitVec 16 :=
  match g.val with
  | 0 => 0x8000 | 1 => 0x8000 | 8 => 0x0000 | 9 => 0x0003 | _ => 0xE000

/-- The places at which a group records a raised factor: its error factors and its enabled event factors (R156). -/
def Group.records (g : Group) (id : GroupId) : BitVec 16 := errorPlaces id ||| (g.enable &&& eventPlaces id)

/-- Recording a raised factor (R156): it is added to the pending set when it is an error factor or an enabled event
factor, and leaves no trace otherwise. -/
def EventUnit.record (u : EventUnit) (f : Factor) : EventUnit :=
  let g := u.groups[f.group]
  { u with groups := u.groups.set f.group { g with pending := g.pending ||| (f.bit &&& g.records f.group) } }

/-- A block raises a factor. -/
def State.raise (s : State) (f : Factor) : State := { s with events := s.events.record f }

/-- Some group has a factor pending. -/
def EventUnit.anyPending (u : EventUnit) : Bool := u.groups.any fun g => g.pending != 0

/-- The ATTN line: asserted exactly when a factor is pending and the attention mask is clear (R162). -/
def EventUnit.attn (u : EventUnit) : Bool := u.anyPending && !u.mask

end Sys2Proof.Machine
end

