-- ==== Sys2Proof/Decode.lean ====
section
/-! DEFINITION. What a frame or a word spells. No row of spec/opcode_table.json gives bits, so no word spells a command
(decodeTableWord). The central table of request kinds (R172) stands here: the kind code of each request row, and the body
lengths it takes. -/
namespace Sys2Proof

/-- The least and greatest body length of a request kind (R172); none for a kind that is not in the table. -/
def bodyLengths (kind : Byte) : Option (Nat × Nat) :=
  match kind.toNat with
  | 0x01 | 0x02 => some (0, 0)
  | 0x08 => some (3, 3)
  | 0x09 => some (2, 2)
  | 0x0A | 0x0B => some (0, 0)
  | 0x0C | 0x0D => some (1, 1)
  | 0x10 => some (17, 17)
  | 0x11 => some (1, 1)
  | 0x12 => some (4, 4)
  | 0x13 => some (2, 2)
  | 0x14 | 0x15 => some (5, 5)
  | 0x16 | 0x17 => some (1, 1)
  | 0x20 => some (16, 16)
  | 0x21 => some (18, 18)
  | 0x22 => some (12, 12)
  | 0x23 => some (2, 2)
  | 0x24 => some (3, 3)
  | 0x25 => some (1, 1)
  | 0x26 => some (2, 2)
  | 0x27 => some (3, 3)
  | 0x30 => some (1, 1)
  | 0x31 => some (13, 13)
  | 0x32 | 0x33 => some (2, 2)
  | 0x40 | 0x41 => some (14, 14)
  | 0x42 => some (12, 12)
  | 0x43 | 0x44 | 0x45 | 0x46 => some (8, 8)
  | 0x47 => some (3, 3)
  | 0x48 => some (4, 4)
  | 0x50 => some (110, 110)
  | 0x51 => some (1, 1)
  | 0x60 => some (3, 3)
  | 0x61 => some (4, 243)
  | 0x62 => some (1, 1)
  | 0x63 => some (3, 3)
  | 0x64 => some (6, 245)
  | 0x65 => some (0, 0)
  | 0x70 => some (6, 6)
  | 0x71 => some (0, 0)
  | 0x72 => some (2, 2)
  | 0x78 => some (9, 9)
  | 0x79 => some (1, 1)
  | 0x7A => some (0, 0)
  | _ => none

/-- A body of this length fits the kind (R172, check 2). -/
def lengthFits (kind : Byte) (n : Nat) : Bool :=
  match bodyLengths kind with
  | some (lo, hi) => decide (lo ≤ n) && decide (n ≤ hi)
  | none => false

/-- The command by which the Request Decoder applies, or refuses, a frame it has taken: the row of the frame's kind
(R172). No time passes, nothing is late and no frame order is given; a schedule may give those operands other values. -/
def requestOf (kind tag : Byte) (body : List Byte) : Instr :=
  match kind.toNat with
  | 0x01 => .ident tag body
  | 0x02 => .deviceReset 0 tag body
  | 0x08 => .eventEnable tag body
  | 0x09 => .eventPriority tag body
  | 0x0A => .eventSummary tag body
  | 0x0B => .eventNext tag body
  | 0x0C => .eventRead tag body
  | 0x0D => .attnMask tag body
  | 0x10 => .laneSetup tag body
  | 0x11 => .laneOff tag body
  | 0x12 => .laneStart tag body
  | 0x13 => .laneStop 0 tag body
  | 0x14 => .laneSpeed tag body
  | 0x15 => .laneStage tag body
  | 0x16 => .laneReset tag body
  | 0x17 => .laneQuery tag body
  | 0x20 => .itemAppend tag body
  | 0x21 => .itemInsert tag body
  | 0x22 => .itemReplace tag body
  | 0x23 => .itemRemove tag body
  | 0x24 => .itemPasses tag body
  | 0x25 => .runClear tag body
  | 0x26 => .itemQuery tag body
  | 0x27 => .runList tag body
  | 0x30 => .holdRelease tag body
  | 0x31 => .cueSet tag body
  | 0x32 => .cueClear tag body
  | 0x33 => .cueQuery tag body
  | 0x40 => .symDefine tag body
  | 0x41 => .symPrice tag body
  | 0x42 => .symReference tag body
  | 0x43 => .symHalt tag body
  | 0x44 => .symResume tag body
  | 0x45 => .symRemove tag body
  | 0x46 => .symQuery tag body
  | 0x47 => .symScan tag body
  | 0x48 => .classSetup tag body
  | 0x50 => .templateSet tag body
  | 0x51 => .templateQuery tag body
  | 0x60 => .textCreate tag body
  | 0x61 => .textWrite tag body
  | 0x62 => .textFree tag body
  | 0x63 => .faceSetup tag body
  | 0x64 => .glyphLoad tag body
  | 0x65 => .storeQuery tag body
  | 0x70 => .timingSetup 0 [] tag body
  | 0x71 => .timingQuery tag body
  | 0x72 => .gpiSetup tag body
  | 0x78 => .paletteSet tag body
  | 0x79 => .outputSetup tag body
  | 0x7A => .outputResume tag body
  | _ => .unknownKind kind tag body

/-- The request frame a request command stands for: its kind, tag and body (R166, R172); none for an event row. -/
def requestFrame : Instr → Option (Byte × Byte × List Byte)
  | .ident t b => some (0x01, t, b)
  | .deviceReset _ t b => some (0x02, t, b)
  | .eventEnable t b => some (0x08, t, b)
  | .eventPriority t b => some (0x09, t, b)
  | .eventSummary t b => some (0x0A, t, b)
  | .eventNext t b => some (0x0B, t, b)
  | .eventRead t b => some (0x0C, t, b)
  | .attnMask t b => some (0x0D, t, b)
  | .laneSetup t b => some (0x10, t, b)
  | .laneOff t b => some (0x11, t, b)
  | .laneStart t b => some (0x12, t, b)
  | .laneStop _ t b => some (0x13, t, b)
  | .laneSpeed t b => some (0x14, t, b)
  | .laneStage t b => some (0x15, t, b)
  | .laneReset t b => some (0x16, t, b)
  | .laneQuery t b => some (0x17, t, b)
  | .itemAppend t b => some (0x20, t, b)
  | .itemInsert t b => some (0x21, t, b)
  | .itemReplace t b => some (0x22, t, b)
  | .itemRemove t b => some (0x23, t, b)
  | .itemPasses t b => some (0x24, t, b)
  | .runClear t b => some (0x25, t, b)
  | .itemQuery t b => some (0x26, t, b)
  | .runList t b => some (0x27, t, b)
  | .holdRelease t b => some (0x30, t, b)
  | .cueSet t b => some (0x31, t, b)
  | .cueClear t b => some (0x32, t, b)
  | .cueQuery t b => some (0x33, t, b)
  | .symDefine t b => some (0x40, t, b)
  | .symPrice t b => some (0x41, t, b)
  | .symReference t b => some (0x42, t, b)
  | .symHalt t b => some (0x43, t, b)
  | .symResume t b => some (0x44, t, b)
  | .symRemove t b => some (0x45, t, b)
  | .symQuery t b => some (0x46, t, b)
  | .symScan t b => some (0x47, t, b)
  | .classSetup t b => some (0x48, t, b)
  | .templateSet t b => some (0x50, t, b)
  | .templateQuery t b => some (0x51, t, b)
  | .textCreate t b => some (0x60, t, b)
  | .textWrite t b => some (0x61, t, b)
  | .textFree t b => some (0x62, t, b)
  | .faceSetup t b => some (0x63, t, b)
  | .glyphLoad t b => some (0x64, t, b)
  | .storeQuery t b => some (0x65, t, b)
  | .timingSetup _ _ t b => some (0x70, t, b)
  | .timingQuery t b => some (0x71, t, b)
  | .gpiSetup t b => some (0x72, t, b)
  | .paletteSet t b => some (0x78, t, b)
  | .outputSetup t b => some (0x79, t, b)
  | .outputResume t b => some (0x7A, t, b)
  | .unknownKind k t b => some (k, t, b)
  | .decoderTake => none
  | .receiveByte _ _ => none
  | .byteError _ => none
  | .interByteTimeout => none
  | .replySent => none
  | .powerOnReset _ => none
  | .framePeriodExpiry _ => none
  | .windowExpiry _ => none
  | .referencePulse _ _ => none
  | .armedStart _ => none
  | .holdDwellExpiry _ => none
  | .symbolStale _ => none
  | .compositionComplete => none
  | .refreshTake => none
  | .refreshComplete => none
  | .gpiLevelChange _ _ => none
  | .gpiDebounceExpiry _ _ => none

/-- No row of spec/opcode_table.json gives the bits of a word (its "fields" are empty and it has no "fixed"), so no word
spells a command. -/
def decodeTableWord (_nbits _w : Nat) : Option Instr := none

end Sys2Proof
end

