-- ==== Sys2Proof/Machine/Operands.lean ====
section
/-! DEFINITION. The fields of a request body and of reply data (R174: in order, big-endian, unsigned unless the rule
says signed), the codes of the enumerated fields, and the result codes (R175). -/
namespace Sys2Proof.Machine

/-! ### Fields -/

/-- The unsigned big-endian value of bytes. -/
def beValue (bs : List Byte) : Nat := bs.foldl (fun n b => n * 256 + b.toNat) 0

/-- The field of `width` bytes that starts at byte `off` of a body. -/
def field (body : List Byte) (off width : Nat) : Nat := beValue ((body.drop off).take width)

/-- The bytes of a field. -/
def fieldBytes (body : List Byte) (off width : Nat) : List Byte := (body.drop off).take width

/-- A value as a big-endian field of a width. -/
def be : (width v : Nat) → List Byte
  | 0, _ => []
  | w + 1, v => BitVec.ofNat 8 (v / 256 ^ w) :: be w v

/-- A signed value as a field of a width, in two's complement (R174). -/
def beSigned (width : Nat) (z : Int) : List Byte := be width (z % (256 ^ width : Nat)).toNat

/-- A one-byte field that names one of n things, if it is below n. -/
def small? (n v : Nat) : Option (Fin n) := if h : v < n then some ⟨v, h⟩ else none

def boolByte (b : Bool) : List Byte := be 1 (if b then 1 else 0)

/-! ### Codes of enumerated fields -/

/-- R27. -/
def LaneState.code : LaneState → Nat
  | .off => 0 | .idle => 1 | .armed => 2 | .run => 3 | .brake => 4 | .held => 5 | .stopped => 6 | .frozen => 7

/-- R27. -/
def brakeCode : Option BrakeKind → Nat
  | none => 0 | some .target => 1 | some .ramp => 2

/-- R1, R16. -/
def onEmpty? : Nat → Option OnEmpty
  | 0 => some .runBlank | 1 => some .stop | _ => none

/-- R1, R16. -/
def faultPolicy? : Nat → Option FaultPolicy
  | 0 => some .skip | 1 => some .blank | _ => none

/-- A field that is 0 or 1. -/
def bool? : Nat → Option Bool
  | 0 => some false | 1 => some true | _ => none

/-- R55. -/
def cueSource? : Nat → Option CueSource
  | 0 => some .travel | 1 => some .entries | 2 => some .runFrames | 3 => some .itemEntry | _ => none

def CueSource.code : CueSource → Nat
  | .travel => 0 | .entries => 1 | .runFrames => 2 | .itemEntry => 3

/-- R55. -/
def cueMethod? : Nat → Option CueMethod
  | 0 => some .reach | 1 => some .cross | _ => none

def CueMethod.code : CueMethod → Nat
  | .reach => 0 | .cross => 1

/-- R55. -/
def cueAction? : Nat → Option CueAction
  | 0 => some .none | 1 => some .stopNow | 2 => some .stopRamp | 3 => some .stopAt | 4 => some .loadStaged | _ => none

def CueAction.code : CueAction → Nat
  | .none => 0 | .stopNow => 1 | .stopRamp => 2 | .stopAt => 3 | .loadStaged => 4

/-- The stop modes of LANE_STOP (R20). -/
inductive StopMode where
  | now | ramp | clear
  deriving DecidableEq, Repr

def stopMode? : Nat → Option StopMode
  | 0 => some .now | 1 => some .ramp | 2 => some .clear | _ => none

/-- R33. -/
def Style.code : Style → Nat
  | .up => 0 | .down => 1 | .flat => 2 | .halted => 3 | .noPrice => 4 | .ink => 5

def Direction.code : Direction → Nat
  | .up => 0 | .down => 1

/-- R136. -/
def ClockSource.code : ClockSource → Nat
  | .free => 0 | .reference => 1

def clockSource? : Nat → Option ClockSource
  | 0 => some .free | 1 => some .reference | _ => none

def LockState.code : LockState → Nat
  | .free => 0 | .seek => 1 | .locked => 2 | .holdover => 3

/-- R136, R140. -/
def EdgeKind.code : EdgeKind → Nat
  | .none => 0 | .rise => 1 | .fall => 2 | .both => 3

def edgeKind? : Nat → Option EdgeKind
  | 0 => some .none | 1 => some .rise | 2 => some .fall | 3 => some .both | _ => none

/-- R150. -/
def overrunPolicy? : Nat → Option OverrunPolicy
  | 0 => some .repeatFrame | 1 => some .freeze | _ => none

/-- A price or reference as carried: FFFFFFFFh when absent (R78, R89). -/
def priceField (v : Option Nat) : List Byte := be 4 (v.getD Config.absentPrice)

/-- A reference price as carried: absent for FFFFFFFFh. -/
def referenceOf (v : Nat) : Option Nat := if v = Config.absentPrice then none else some v

/-- A reference field that is neither absent nor a price in range (R78, R83). -/
def referenceBad (v : Nat) : Bool := decide (v > Config.maxPrice) && decide (v ≠ Config.absentPrice)

/-- The characters of a symbol code (R76): A to Z, 0 to 9, full stop, hyphen, solidus. -/
def codeChar (b : Byte) : Bool :=
  (decide (0x41 ≤ b.toNat) && decide (b.toNat ≤ 0x5A)) || (decide (0x30 ≤ b.toNat) && decide (b.toNat ≤ 0x39)) ||
    b == 0x2E#8 || b == 0x2D#8 || b == 0x2F#8

/-- The padding byte of a symbol code. -/
def padByte : Byte := 0x20#8

/-- A valid symbol code (R76): 8 bytes, 1 to 8 code characters first, then padding only. -/
def codeValid (code : SymCode) : Bool :=
  decide (code.length = 8) && !(code.takeWhile codeChar).isEmpty && (code.dropWhile codeChar).all (· == padByte)

/-! ### Result codes -/

/-- R175. -/
inductive Result where
  | ok | noEffect | superseded | deferred
  | unknownKind | badLength | badParam | busy | noItem | noSymbol | noText | exists | tableFull | poolFull | noSpace
  | inUse | inView | visible | halted | faceBusy | sequence | range | passed | tooLong | queueFull
  deriving DecidableEq, Repr

def Result.code : Result → Byte
  | .ok => 0x00 | .noEffect => 0x01 | .superseded => 0x02 | .deferred => 0x03
  | .unknownKind => 0x10 | .badLength => 0x11 | .badParam => 0x12 | .busy => 0x13 | .noItem => 0x14 | .noSymbol => 0x15
  | .noText => 0x16 | .exists => 0x17 | .tableFull => 0x18 | .poolFull => 0x19 | .noSpace => 0x1A | .inUse => 0x1B
  | .inView => 0x1C | .visible => 0x1D | .halted => 0x1E | .faceBusy => 0x1F | .sequence => 0x20 | .range => 0x21
  | .passed => 0x22 | .tooLong => 0x23 | .queueFull => 0x24

/-- What a request's rule answers: a result and, with OK only, data (R173). -/
structure Reply where
  result : Result
  data : List Byte
  deriving DecidableEq, Repr

/-- A result with no data. -/
def bare (r : Result) : Reply := { result := r, data := [] }

/-- OK followed by data. -/
def okWith (data : List Byte) : Reply := { result := .ok, data := data }

/-- The body of a reply: the result code, and the data when the result is OK (R173). -/
def Reply.body (r : Reply) : List Byte := r.result.code :: (if r.result = .ok then r.data else [])

/-- The reply frame to a request (R166, R173): its kind plus 80h modulo 256, and its tag. -/
def replyFrame (request : Frame) (r : Reply) : Frame :=
  { kind := request.kind + 0x80, tag := request.tag, body := r.body }

/-- The check byte of a frame (R166). -/
def checkByte (f : Frame) : Byte :=
  BitVec.ofNat 8 (256 - ((f.body.length + 2) + f.kind.toNat + f.tag.toNat + (f.body.map BitVec.toNat).sum) % 256)

/-- The bytes of a frame on the link (R166). -/
def Frame.wire (f : Frame) : List Byte :=
  Config.marker :: BitVec.ofNat 8 (f.body.length + 2) :: f.kind :: f.tag :: (f.body ++ [checkByte f])

end Sys2Proof.Machine
end

