-- ==== Sys2Proof/Machine/Tables.lean ====
section
/-! DEFINITION. Reading and writing sparse tables (rising numbers), and taking the lowest-numbered free places. -/
namespace Sys2Proof.Machine

/-- The record with a number. -/
def tableFind {α : Type} : Table α → Nat → Option α
  | [], _ => none
  | (j, v) :: t, k => if j = k then some v else tableFind t k

/-- Write the record with a number, in its place. -/
def tablePut {α : Type} : Table α → Nat → α → Table α
  | [], k, v => [(k, v)]
  | (j, w) :: t, k, v =>
    if j = k then (k, v) :: t else if k < j then (k, v) :: (j, w) :: t else (j, w) :: tablePut t k v

/-- Remove the record with a number. -/
def tableErase {α : Type} : Table α → Nat → Table α
  | [], _ => []
  | (j, v) :: t, k => if j = k then t else (j, v) :: tableErase t k

/-- Change the record with a number, if there is one. -/
def tableUpdate {α : Type} : Table α → Nat → (α → α) → Table α
  | [], _, _ => []
  | (j, v) :: t, k, f => if j = k then (j, f v) :: t else (j, v) :: tableUpdate t k f

/-- The numbers of a table rise strictly: its canonical form. -/
def tableRising {α : Type} (t : Table α) : Bool := decide ((t.map Prod.fst).Pairwise (· < ·))

/-- The lowest number at or above `k` that a rising table does not list. -/
def lowestFreeFrom {α : Type} : Nat → Table α → Nat
  | k, [] => k
  | k, (j, _) :: t => if j = k then lowestFreeFrom (k + 1) t else k

/-- The lowest-numbered free slot of a table with a number of slots (R29, R78). -/
def lowestFree {α : Type} (t : Table α) (limit : Nat) : Option Nat :=
  if lowestFreeFrom 0 t < limit then some (lowestFreeFrom 0 t) else none

/-- The `need` lowest-numbered places that are not used, looking at `places` places from `at_` on (R117, R125). -/
def takeLowestFrom (used : List Nat) : (places at_ need : Nat) → List Nat
  | 0, _, _ => []
  | p + 1, at_, need =>
    if need = 0 then []
    else if at_ ∈ used then takeLowestFrom used p (at_ + 1) need
    else at_ :: takeLowestFrom used p (at_ + 1) (need - 1)

def takeLowest (used : List Nat) (limit need : Nat) : List Nat := takeLowestFrom used limit 0 need

/-- n divided by d, rounded up. -/
def ceilDiv (n d : Nat) : Nat := (n + d - 1) / d

end Sys2Proof.Machine
end

