-- ==== Sys2Proof/Machine/Format.lean ====
section
/-! DEFINITION. The Formatter's arithmetic: printing amounts, the fields of a quote, its condition and style, and widths
(R95, R97 to R104). -/
namespace Sys2Proof.Machine

/-! ### Digits (R97) -/

/-- The decimal digits of a number, no leading zeros, at least one. -/
def decDigits : (fuel n : Nat) → List Nat
  | 0, n => [n % 10]
  | k + 1, n => if n < 10 then [n] else decDigits k (n / 10) ++ [n % 10]

/-- Exactly d decimal digits, leading zeros kept. -/
def fixedDigits : (d n : Nat) → List Nat
  | 0, _ => []
  | d + 1, n => fixedDigits d (n / 10) ++ [n % 10]

/-- The code of digit k: the digit-0 code plus k. -/
def digitCode (m : NumeralMap) (k : Nat) : Byte := m.digit0 + BitVec.ofNat 8 k

/-- A separator between every third integer digit and the digit to its left, counted from the right. -/
def groupThrees (sep : Byte) : List Byte → List Byte
  | [] => []
  | c :: cs => if cs ≠ [] ∧ cs.length % 3 = 0 then c :: sep :: groupThrees sep cs else c :: groupThrees sep cs

/-- The integer part of an amount, grouped when the template groups. -/
def integerCodes (t : Template) (n : Nat) : List Byte :=
  let ds := (decDigits 20 n).map (digitCode t.numerals)
  if t.grouping then groupThrees t.numerals.separator ds else ds

/-- An amount X in units of 10^−d (R97). -/
def printAmount (t : Template) (x d : Nat) : List Byte :=
  if d = 0 then integerCodes t x
  else integerCodes t (x / 10 ^ d) ++ t.numerals.point :: (fixedDigits d (x % 10 ^ d)).map (digitCode t.numerals)

/-! ### Change and percentage (R99 to R101) -/

/-- The sign code of a change from a reference to a price. -/
def signCodes (t : Template) (p rf : Nat) : List Byte :=
  if p > rf then [t.numerals.plus] else if p < rf then [t.numerals.minus] else []

/-- The size of the change. -/
def changeSize (p rf : Nat) : Nat := if p ≥ rf then p - rf else rf - p

/-- The CHANGE field (R99). -/
def changeCodes (t : Template) (p rf d : Nat) : List Byte := signCodes t p rf ++ printAmount t (changeSize p rf) d

/-- The change in hundredths of a percent, halves rounded away from zero, held to 99,999 (R100). -/
def percentHundredths (p rf : Nat) : Nat := min 99999 ((changeSize p rf * 20000 + rf) / (2 * rf))

/-- The PERCENT field (R100); grouping is never applied. -/
def percentCodes (t : Template) (p rf : Nat) : List Byte :=
  let q := percentHundredths p rf
  signCodes t p rf ++ (decDigits 20 (q / 100)).map (digitCode t.numerals) ++ [t.numerals.point] ++
    (fixedDigits 2 (q % 100)).map (digitCode t.numerals) ++ [t.numerals.percent]

/-- UP, DOWN or FLAT: the direction of a price against its reference; FLAT when that is absent or 0 (R101). -/
def quoteStyle (p : Nat) (rf : Option Nat) : Style :=
  match rf with
  | none => .flat
  | some r => if r = 0 then .flat else if p > r then .up else if p < r then .down else .flat

/-! ### The fields of a quote (R102, R103) -/

/-- What the Formatter reads of a symbol record (R106, R108). -/
structure QuoteView where
  code : SymCode
  price : Option Nat
  reference : Option Nat
  decimals : Nat
  halted : Bool
  deriving DecidableEq, Repr

def SymbolRec.view (r : SymbolRec) : QuoteView :=
  { code := r.code, price := r.price, reference := r.reference, decimals := r.decimals, halted := r.halted }

/-- The condition of a symbol record (R102). -/
inductive Condition where
  | trading (price : Nat)
  | halted
  | noPrice
  deriving DecidableEq, Repr

def QuoteView.condition (q : QuoteView) : Condition :=
  match q.price with
  | none => .noPrice
  | some p => if q.halted then .halted else .trading p

/-- The rendered style of a condition (R102). -/
def QuoteView.style (q : QuoteView) : Style :=
  match q.condition with
  | .noPrice => .noPrice
  | .halted => .halted
  | .trading p => quoteStyle p q.reference

/-- A reference the change can be measured against: present and above 0 (R99 to R101). -/
def QuoteView.measure (q : QuoteView) : Option Nat :=
  match q.reference with
  | some r => if r = 0 then none else some r
  | none => none

/-- The arrow code of a style (R101). -/
def arrowCode (m : NumeralMap) : Style → Byte
  | .up => m.up | .down => m.down | _ => m.flat

/-- The codes PRICE, CHANGE, PERCENT and ARROW render in each condition (R98 to R102). -/
def priceCodes (t : Template) (q : QuoteView) : List Byte :=
  match q.condition with
  | .trading p => printAmount t p q.decimals
  | .halted => t.halt
  | .noPrice => [t.numerals.noValue]

def changeField (t : Template) (q : QuoteView) : List Byte :=
  match q.condition with
  | .trading p => match q.measure with
    | some rf => changeCodes t p rf q.decimals
    | none => [t.numerals.noValue]
  | .halted => []
  | .noPrice => [t.numerals.noValue]

def percentField (t : Template) (q : QuoteView) : List Byte :=
  match q.condition with
  | .trading p => match q.measure with
    | some rf => percentCodes t p rf
    | none => [t.numerals.noValue]
  | .halted => []
  | .noPrice => [t.numerals.noValue]

def arrowField (t : Template) (q : QuoteView) : List Byte :=
  match q.condition with
  | .trading p => [arrowCode t.numerals (quoteStyle p q.reference)]
  | .halted => []
  | .noPrice => [t.numerals.flat]

def TemplateField.kind : TemplateField → FieldKind
  | .symbol => .symbol | .price => .price | .change => .change | .percent => .percent | .arrow => .arrow
  | .gap _ => .gap | .literal _ => .literal

/-- One field of a template rendered (R102, R103). -/
def renderField (t : Template) (q : QuoteView) (f : TemplateField) : RenderedField :=
  { kind := f.kind
    entries := match f with
      | .symbol => (q.code.filter (· != padByte)).map .glyph
      | .price => (priceCodes t q).map .glyph
      | .change => (changeField t q).map .glyph
      | .percent => (percentField t q).map .glyph
      | .arrow => (arrowField t q).map .glyph
      | .gap w => [.gap w]
      | .literal codes => codes.map .glyph }

/-- The rendering of a quote: its template's fields in order (R103). -/
def renderQuote (t : Template) (q : QuoteView) : List RenderedField := t.fields.map (renderField t q)

/-- The glyph and gap entries of a rendering, left to right. -/
def flatEntries (fields : List RenderedField) : List GlyphEntry := fields.flatMap RenderedField.entries

/-- The glyph entries of a rendering, counted. -/
def glyphCount (es : List GlyphEntry) : Nat :=
  es.countP fun e => match e with | .glyph _ => true | .gap _ => false

/-- The PRICE fields of a rendering, which R111 compares. -/
def priceEntries (fields : List RenderedField) : List GlyphEntry :=
  flatEntries (fields.filter fun f => decide (f.kind = .price))

/-- The worst-case glyph count of one field (R95). -/
def worstField (grouping : Bool) : TemplateField → Nat
  | .symbol => 8
  | .price => if grouping then 12 else 11
  | .change => if grouping then 13 else 12
  | .percent => 8
  | .arrow => 1
  | .literal codes => codes.length
  | .gap _ => 0

/-- The worst-case glyph count of a template (R95). -/
def worstCount (t : Template) : Nat := (t.fields.map (worstField t.grouping)).sum

/-! ### Widths (R104) -/

/-- A glyph whose image has been received whole (R121). -/
def Glyph.complete (g : Glyph) : Bool := decide (g.image.length = g.expected)

/-- The COMPLETE glyph of a code in a face. -/
def Face.usable (f : Face) (code : Byte) : Option Glyph :=
  match tableFind f.glyphs code.toNat with
  | some g => if g.complete then some g else none
  | none => none

/-- The advance a code takes: its COMPLETE glyph's, else the face's default (R104). -/
def Face.advance (f : Face) (code : Byte) : Nat :=
  match f.usable code with
  | some g => g.advance
  | none => f.defaultAdvance

/-- The width of one entry (R104). -/
def entryWidth (f : Face) : GlyphEntry → Nat
  | .glyph c => f.advance c
  | .gap w => w

/-- The rendered width of a quote. -/
def quoteWidth (f : Face) (fields : List RenderedField) : Nat := ((flatEntries fields).map (entryWidth f)).sum

/-- The rendered width of a text: every code of it, first to last. -/
def textWidth (f : Face) (codes : List Byte) : Nat := (codes.map f.advance).sum

end Sys2Proof.Machine
end

