-- ==== Sys2Proof/Machine/Ops.lean ====
section
/-! DEFINITION. The operations the blocks share: reaching a lane, an item, a symbol or a text; references and view lists
(R43, R90); the refresh queue (R107 to R109); freeing an item (R31); coming to rest, sync pulses and starts (R14, R18, R19,
R63, R73, R74); stops (R20 to R23); and which faces and texts are held (R116, R123). -/
namespace Sys2Proof.Machine

/-! ### Reaching the records -/

/-- The six lanes in order of number. -/
def allLanes : List LaneId := [0, 1, 2, 3, 4, 5]

def State.lane (s : State) (i : LaneId) : Lane := s.lanes[i]

def State.setLane (s : State) (i : LaneId) (l : Lane) : State := { s with lanes := s.lanes.set i l }

def State.updLane (s : State) (i : LaneId) (f : Lane → Lane) : State := s.setLane i (f (s.lane i))

def State.item? (s : State) (slot : Nat) : Option Item := tableFind s.pool.items slot

def State.updItem (s : State) (slot : Nat) (f : Item → Item) : State :=
  { s with pool := { s.pool with items := tableUpdate s.pool.items slot f } }

def State.symbol? (s : State) (slot : Nat) : Option SymbolRec := tableFind s.symbols slot

def State.updSymbol (s : State) (slot : Nat) (f : SymbolRec → SymbolRec) : State :=
  { s with symbols := tableUpdate s.symbols slot f }

def State.text? (s : State) (id : Nat) : Option TextRec := tableFind s.texts id

def State.updText (s : State) (id : Nat) (f : TextRec → TextRec) : State :=
  { s with texts := tableUpdate s.texts id f }

/-- The map of R76: the slot whose record has exactly these 8 bytes as its code. -/
def findCode : Table SymbolRec → SymCode → Option (Nat × SymbolRec)
  | [], _ => none
  | (k, r) :: t, c => if r.code = c then some (k, r) else findCode t c

/-- The generation of a slot (R29); 0 when the pool lists none. -/
def Pool.generation (p : Pool) (slot : Nat) : Nat := (tableFind p.generations slot).getD 0

/-- The handle of a slot at its present generation (R29). -/
def Pool.handle (p : Pool) (slot : Nat) : Nat := p.generation slot * Config.itemSlots + slot

/-- The generation that follows, 31 wrapping to 0 (R31). A generation of 0 is not listed. -/
def Pool.bump (p : Pool) (slot : Nat) : Pool :=
  let g := (p.generation slot + 1) % Config.generations
  { p with generations := if g = 0 then tableErase p.generations slot else tablePut p.generations slot g }

/-- The slot and item a handle names; none answers NO_ITEM (R30). -/
def State.resolve (s : State) (handle : Nat) : Option (Nat × Item) :=
  let slot := handle % Config.itemSlots
  match s.item? slot with
  | some it => if s.pool.generation slot = handle / Config.itemSlots then some (slot, it) else none
  | none => none

/-- A cell's VISIBLE state (R32). -/
def Item.isVisible (it : Item) : Bool := it.cell.isSome

/-! ### References and view lists -/

/-- A new reference of an item to its symbol or text (R43). -/
def State.addReference (s : State) : Content → State
  | .quote _ link => s.updSymbol link fun r => { r with refCount := r.refCount + 1 }
  | .text id => s.updText id fun r => { r with refCount := r.refCount + 1 }
  | .mark _ => s

/-- A reference given up (R43). -/
def State.dropReference (s : State) : Content → State
  | .quote _ link => s.updSymbol link fun r => { r with refCount := r.refCount - 1 }
  | .text id => s.updText id fun r => { r with refCount := r.refCount - 1 }
  | .mark _ => s

/-- An item that enters joins the end of its symbol's view list (R90); a TEXT raises its text's view count (R116). -/
def State.joinView (s : State) (slot : Nat) : Content → State
  | .quote _ link => s.updSymbol link fun r => { r with viewList := r.viewList ++ [slot] }
  | .text id => s.updText id fun r => { r with viewCount := r.viewCount + 1 }
  | .mark _ => s

/-- A visible item that retires or is freed leaves its symbol's view list and the refresh queue, and a refresh
formatting of it in flight is marked discarded (R31, R37, R109); a TEXT lowers its text's view count (R116). -/
def State.leaveView (s : State) (slot : Nat) : Content → State
  | .quote _ link =>
    let s := s.updSymbol link fun r => { r with viewList := r.viewList.erase slot }
    { s with formatter :=
        { s.formatter with
          queue := s.formatter.queue.erase slot
          inFlight := s.formatter.inFlight.map fun f => if f.item = slot then { f with discarded := true } else f } }
  | .text id => s.updText id fun r => { r with viewCount := r.viewCount - 1 }
  | .mark _ => s

/-! ### The refresh queue -/

/-- What the Formatter reads of the symbol a QUOTE item names. -/
def State.quoteView (s : State) (code : SymCode) (link : Nat) : QuoteView :=
  match s.symbol? link with
  | some r => r.view
  | none => { code := code, price := none, reference := none, decimals := 0, halted := false }

def State.laneTemplate (s : State) (i : LaneId) : Template := s.formatter.templates[(s.lane i).setup.template]

def State.laneFace (s : State) (i : LaneId) : Face := s.faces[(s.lane i).setup.face]

/-- The refresh formatting the Formatter begins of a QUOTE item, from the values it reads at the take (R108). -/
def State.beginFormatting (s : State) (slot : Nat) (it : Item) (code : SymCode) (link : Nat) : Formatting :=
  let q := s.quoteView code link
  let fields := renderQuote (s.laneTemplate it.lane) q
  { item := slot, price := q.price, previous := (s.symbol? link).bind SymbolRec.previous, reference := q.reference,
    decimals := q.decimals, halted := q.halted, fields := fields, style := q.style,
    width := quoteWidth (s.laneFace it.lane) fields, overtaken := false, discarded := false }

/-- The free Formatter takes the handle at the head of the refresh queue and begins a refresh formatting of it; nothing
happens while a formatting is in flight or the queue is empty (R108). -/
def State.takeRefresh (s : State) : State :=
  match s.formatter.inFlight, s.formatter.queue with
  | none, slot :: rest =>
    match s.item? slot with
    | some it =>
      match it.content with
      | .quote code link =>
        { s with formatter := { s.formatter with queue := rest, inFlight := some (s.beginFormatting slot it code link) } }
      | _ => { s with formatter := { s.formatter with queue := rest } }
    | none => { s with formatter := { s.formatter with queue := rest } }
  | _, _ => s

/-- Mark the cell of an item forced-stale. -/
def Item.forceStale (it : Item) : Item := { it with cell := it.cell.map fun c => { c with forcedStale := true } }

/-- An offer of an item to the refresh queue (R107): already queued, nothing changes; queue full, the cell is marked
forced-stale, REFRESH_DROPPED is raised in its lane's group and a formatting of it in flight is marked overtaken;
otherwise it joins the tail, and a free Formatter takes the head at once (R108). -/
def State.offer (s : State) (slot : Nat) : State :=
  if slot ∈ s.formatter.queue then s
  else if s.formatter.queue.length ≥ Config.refreshSlots then
    match s.item? slot with
    | some it =>
      let s := s.updItem slot Item.forceStale
      let s := s.raise (.refreshDropped it.lane)
      { s with formatter :=
          { s.formatter with
            inFlight := s.formatter.inFlight.map fun f => if f.item = slot then { f with overtaken := true } else f } }
    | none => s
  else
    State.takeRefresh { s with formatter := { s.formatter with queue := s.formatter.queue ++ [slot] } }

/-- A symbol's view list offered in list order (R91). -/
def State.offerView (s : State) (link : Nat) : State :=
  match s.symbol? link with
  | some r => r.viewList.foldl State.offer s
  | none => s

/-! ### Freeing items -/

/-- An item leaves its lane's run list. -/
def Lane.dropItem (slot : Nat) (l : Lane) : Lane :=
  { l with visible := l.visible.erase slot, queued := l.queued.erase slot }

/-- Freeing an item (R31): a visible one leaves its view list and the refresh queue; it leaves its run list; its reference
is given up; its slot's generation rises and the slot is free. -/
def State.freeItem (s : State) (slot : Nat) : State :=
  match s.item? slot with
  | none => s
  | some it =>
    let s := if it.isVisible then s.leaveView slot it.content else s
    let s := s.updLane it.lane (Lane.dropItem slot)
    let s := s.dropReference it.content
    { s with pool := Pool.bump { s.pool with items := tableErase s.pool.items slot } slot }

/-- Items freed one after another. -/
def State.freeItems (s : State) (slots : List Nat) : State := slots.foldl State.freeItem s

/-- An item that crossed, or was skipped, is disposed of by its passes remaining (R37, R41): re-appended at the tail with 0
passes or with one pass fewer, or freed with RETIRED raised. It stands in no part of its lane's run list before. -/
def State.disposeItem (s : State) (i : LaneId) (slot : Nat) (passes : Nat) : State :=
  if passes = 1 then (s.freeItem slot).raise (.retired i)
  else
    let s := s.updItem slot fun it => { it with passes := passes - 1 }
    s.updLane i fun l => { l with queued := l.queued ++ [slot] }

/-! ### Starts and comings to rest -/

/-- A lane that holds no item at all. -/
def Lane.isEmpty (l : Lane) : Bool := l.visible.isEmpty && l.queued.isEmpty

def ReturnState.laneState : ReturnState → LaneState
  | .idle => .idle | .stopped => .stopped

/-- The start from IDLE or STOPPED, directly or by way of ARMED (R18, R74). On an empty run list with on-empty policy STOP
it completes at once in the stationary state and raises DRAINED (R19); otherwise the lane enters RUN with V = 0, N becoming T
from IDLE, and raises STARTED. -/
def State.startFrom (s : State) (i : LaneId) (returns : ReturnState) : State :=
  let l := s.lane i
  if l.isEmpty && decide (l.setup.onEmpty = .stop) then
    (s.setLane i { l with state := returns.laneState, arm := none, clearing := false }).raise (.drained i)
  else
    (s.setLane i { l with
      state := .run, velocity := 0, arm := none, clearing := false
      nextEntry := if returns = .idle then l.travel else l.nextEntry }).raise (.started i)

/-- A lane leaves ARMED because its condition is met (R74). -/
def State.startArmed (s : State) (i : LaneId) : State :=
  match (s.lane i).arm with
  | some a => if (s.lane i).state = .armed then s.startFrom i a.returns else s
  | none => s

/-- The cause that meets a lane's condition: the lane starts, or, when the cause is late to reach it, the condition is
noted as met and ARMED_START, or the frame start that comes first, starts it (R74, notes/assumptions/4). -/
def State.meetCondition (late : LaneSet) (s : State) (i : LaneId) : State :=
  if late.getLsbD i.val then s.updLane i fun l => { l with arm := l.arm.map fun a => { a with met := true } }
  else s.startArmed i

/-- In RUN or BRAKE (R73). -/
def Lane.isMoving (l : Lane) : Bool := decide (l.state = .run) || decide (l.state = .brake)

/-- Lane k is ARMED on STOP_OF with lane j in its mask, and every lane of the mask is out of RUN and BRAKE (R73). -/
def State.restMeets (s : State) (j k : LaneId) : Bool :=
  match (s.lane k).state, (s.lane k).arm with
  | .armed, some a =>
    match a.condition with
    | .stopOf mask => mask.getLsbD j.val && allLanes.all fun m => !(mask.getLsbD m.val) || !(s.lane m).isMoving
    | _ => false
  | _, _ => false

/-- Lane j comes to rest (R14): every lane armed on STOP_OF with j in its mask is tested at that moment, and those whose
test holds start (R73). -/
def State.comesToRest (s : State) (late : LaneSet) (j : LaneId) : State :=
  (allLanes.filter (s.restMeets j)).foldl (State.meetCondition late) s

/-- A lane ARMED on SYNC. -/
def Lane.awaitsSync (l : Lane) : Bool :=
  match l.state, l.arm with
  | .armed, some a => decide (a.condition = .sync)
  | _, _ => false

/-- A sync pulse reaches one lane (R63). -/
def State.pulse (s : State) (i : LaneId) : State := if (s.lane i).awaitsSync then s.startArmed i else s

/-- A sync pulse sent to each lane of a mask (R63). -/
def State.pulses (s : State) (mask : LaneSet) : State :=
  (allLanes.filter fun i => mask.getLsbD i.val).foldl State.pulse s

/-! ### Stops (R20 to R23) -/

/-- NOW from RUN, BRAKE or HELD (R21). -/
def State.stopNow (s : State) (late : LaneSet) (i : LaneId) : State :=
  let l := s.lane i
  let s := (s.setLane i { l with
    state := .stopped, velocity := 0, brake := none, dwell := 0, clearing := false }).raise (.stopped i)
  if l.isMoving then s.comesToRest late i else s

/-- A lane leaves ARMED for its return state, raising nothing (R21). -/
def Lane.cancelArm (l : Lane) : Lane :=
  match l.arm with
  | some a => { l with state := a.returns.laneState, arm := none }
  | none => l

/-- LANE_STOP by the table of R20; none stands for NO_EFFECT. The stop actions of a cue act in the same way (R59). -/
def State.applyStop (s : State) (late : LaneSet) (i : LaneId) (mode : StopMode) : Option State :=
  let l := s.lane i
  match l.state with
  | .off | .idle | .stopped | .frozen => none
  | .armed =>
    match mode with
    | .now => some (s.updLane i Lane.cancelArm)
    | .ramp | .clear => none
  | .run | .brake =>
    match mode with
    | .now => some (s.stopNow late i)
    | .ramp =>
      if l.brake = some .ramp then none else some (s.setLane i { l with state := .brake, brake := some .ramp })
    | .clear =>
      if l.brake = some .ramp ∨ l.clearing then none else some (s.setLane i { l with clearing := true })
  | .held =>
    match mode with
    | .now => some (s.stopNow late i)
    | .ramp => some ((s.setLane i { l with state := .stopped, dwell := 0 }).raise (.stopped i))
    | .clear => if l.clearing then none else some (s.setLane i { l with clearing := true })

/-- The hold of a lane ends, by its dwell or by HOLD_RELEASE: RUN with V = 0, HOLD_RELEASED raised (R53, R54). -/
def State.endHold (s : State) (i : LaneId) : State :=
  (s.updLane i fun l => { l with state := .run, velocity := 0, brake := none, dwell := 0 }).raise (.holdReleased i)

/-! ### Targets and cues -/

/-- A target takes its place in the list, kept in ascending order of travel (R3). -/
def insertTarget (t : Target) : List Target → List Target
  | [] => [t]
  | u :: us => if t.travel < u.travel then t :: u :: us else u :: insertTarget t us

/-- The stop target of a cue leaves the list (R62, R65, R66). -/
def dropStopTarget (k : CueId) (ts : List Target) : List Target := ts.filter fun t => decide (t.kind ≠ .stop k)

def Lane.setCue (l : Lane) (k : CueId) (c : Cue) : Lane := { l with cues := l.cues.set k c }

/-- A cue becomes DISARMED and keeps its other fields (R55). -/
def Cue.disarm (c : Cue) : Cue := { c with armed := false }

def Lane.disarmCue (l : Lane) (k : CueId) : Lane := l.setCue k l.cues[k].disarm

/-- All four cues disarmed (R68). -/
def Lane.disarmCues (l : Lane) : Lane := { l with cues := l.cues.map Cue.disarm }

/-! ### Holders of faces and texts -/

/-- A lane in a state other than OFF and IDLE. -/
def Lane.inUse (l : Lane) : Bool := decide (l.state ≠ .off) && decide (l.state ≠ .idle)

/-- The composition in flight draws a cell of the text (R116). -/
def Snapshot.drawsText (sn : Snapshot) (id : Nat) : Bool :=
  sn.lanes.any fun l => l.cells.any fun c => decide (c.rendering = .text id)

/-- The composition in flight draws a cell of a lane that named the face (R123). -/
def Snapshot.drawsFace (sn : Snapshot) (f : Fin 4) : Bool :=
  sn.lanes.any fun l => decide (l.face = f) && !l.cells.isEmpty

/-- A text is in view (R116). -/
def State.inView (s : State) (id : Nat) (t : TextRec) : Bool :=
  decide (t.viewCount > 0) || (s.compositor.inFlight.any fun sn => sn.drawsText id)

/-- A face is busy (R123). -/
def State.faceBusy (s : State) (f : Fin 4) : Bool :=
  (allLanes.any fun i => (s.lane i).inUse && decide ((s.lane i).setup.face = f)) ||
    (s.compositor.inFlight.any fun sn => sn.drawsFace f)

end Sys2Proof.Machine
end

