-- ==== Sys2Proof/Machine/Motion.lean ====
section
/-! DEFINITION. The motion arithmetic of one lane: the ramped velocity, the braking distance, and the step of a moving
advance (R6 to R10). Every quantity is an exact integer. -/
namespace Sys2Proof.Machine

/-- The ramped velocity V′ (R6). -/
def rampedVelocity (v cruise a : Nat) : Nat :=
  if v < cruise then min (v + a) cruise else if v > cruise then max (v - a) cruise else v

/-- The braking distance S(V) (R7). -/
def brakingDistance (v a : Nat) : Nat :=
  if v = 0 then 0
  else
    let m := (v - 1) / a
    m * v - a * m * (m + 1) / 2

/-- Travel after a step: a step past 2^48 − 1 is shortened to end there (R6). -/
def travelAfter (t step : Nat) : Nat := min (t + step) Config.maxTravel

/-- The braking velocity B (R9). -/
def brakingVelocity (v a : Nat) : Nat := if v > a then v - a else if v = 0 then a else v

/-- What the step of a moving advance did to its lane. -/
structure StepResult where
  lane : Lane
  /-- T equals the travel of the nearest target (R9 to R11) -/
  reached : Bool
  /-- the advance was a ramp advance (R10) -/
  ramp : Bool
  /-- the braking velocity of R13; 0 in a normal step -/
  braking : Nat
  deriving DecidableEq, Repr

/-- The step of RUN with no target pending (R6). -/
def freeStep (l : Lane) : StepResult :=
  let v := rampedVelocity l.velocity l.cruise l.accel
  { lane := { l with state := .run, brake := none, velocity := v, travel := travelAfter l.travel v },
    reached := false, ramp := false, braking := 0 }

/-- The braking step toward the nearest target (R9). -/
def brakingStep (l : Lane) (nearest : Nat) : StepResult :=
  let b := brakingVelocity l.velocity l.accel
  let t := travelAfter l.travel (min b (nearest - l.travel))
  { lane := { l with state := .brake, brake := some .target, velocity := b, travel := t },
    reached := decide (t = nearest), ramp := false, braking := b }

/-- The step of RUN with a target pending (R8): a normal step when the lane can still brake in the distance left after
it, a braking step from the velocity held before otherwise. -/
def targetStep (l : Lane) (nearest : Nat) : StepResult :=
  let v := rampedVelocity l.velocity l.cruise l.accel
  let r := nearest - l.travel
  if (r : Int) - (v : Int) ≥ (brakingDistance v l.accel : Int) then
    let t := travelAfter l.travel v
    { lane := { l with velocity := v, travel := t }, reached := decide (t = nearest), ramp := false, braking := 0 }
  else brakingStep l nearest

/-- The ramp step (R10). A ramp that ends is left in STOPPED, not reached. -/
def rampStep (l : Lane) : StepResult :=
  let v := l.velocity - l.accel
  if v = 0 then
    { lane := { l with state := .stopped, brake := none, velocity := 0 }, reached := false, ramp := true, braking := 0 }
  else
    match l.targets with
    | [] =>
      { lane := { l with velocity := v, travel := travelAfter l.travel v }, reached := false, ramp := true, braking := v }
    | near :: _ =>
      let t := travelAfter l.travel (min v (near.travel - l.travel))
      { lane := { l with velocity := v, travel := t }, reached := decide (t = near.travel), ramp := true, braking := v }

/-- The step of a moving advance, by the state of the lane (R5): a ramp step in BRAKE with kind RAMP; the RUN step when no
target is pending, also for a lane in BRAKE whose target has gone; otherwise the braking step in BRAKE and the tested step
in RUN. -/
def stepLane (l : Lane) : StepResult :=
  if l.state = .brake ∧ l.brake = some .ramp then rampStep l
  else
    match l.targets with
    | [] => freeStep l
    | near :: _ => if l.state = .brake then brakingStep l near.travel else targetStep l near.travel

/-! ### Reaching targets (R11, R12) -/

/-- The targets at the lane's travel, which are consumed together. -/
def Lane.landed (l : Lane) : List Target := l.targets.filter fun t => decide (t.travel = l.travel)

/-- The cues that placed the stop targets among targets. -/
def stopCues (ts : List Target) : List CueId :=
  ts.filterMap fun t => match t.kind with | .stop k => some k | .hold _ => none

/-- The hold dwells of the hold targets among targets. -/
def holdDwells (ts : List Target) : List Nat :=
  ts.filterMap fun t => match t.kind with | .hold d => some d | .stop _ => none

/-- The lane after it consumed the targets it reached (R11): STOPPED in a ramp advance or when a stop target is among
them, otherwise HELD with the largest dwell; V = 0, no brake kind, and the cues of the stop targets disarmed. -/
def Lane.land (l : Lane) (ramp : Bool) : Lane :=
  let hit := l.landed
  let stops := ramp || !(stopCues hit).isEmpty
  let l := (stopCues hit).foldl Lane.disarmCue l
  { l with
    targets := l.targets.filter fun t => decide (t.travel ≠ l.travel)
    velocity := 0, brake := none
    state := if stops then .stopped else .held
    dwell := if stops then 0 else (holdDwells hit).foldl max 0 }

end Sys2Proof.Machine
end

