-- ==== Sys2Proof/Machine/Advance.lean ====
section
/-! DEFINITION. What a lane does at a frame start (R5): the five parts of a moving advance (step, retirement, entries, cue
evaluation, run-frame count), the dwell countdown of a held lane and the flash countdown. -/
namespace Sys2Proof.Machine

/-! ### The step -/

/-- The lane lands on the targets it reached (R11 to R13): they are consumed, their factors and those of the landing are
raised, the lane comes to rest, and the cues of the stop targets match and send their pulses (R62). -/
def State.landOn (s : State) (i : LaneId) (r : StepResult) : State :=
  let hit := r.lane.landed
  let l := r.lane.land r.ramp
  let s := s.setLane i l
  let s := (holdDwells hit).foldl (fun s _ => s.raise (.holdReached i)) s
  let s := (stopCues hit).foldl (fun s k => s.raise (.cue i k)) s
  let s := if r.braking > r.lane.accel then s.raise (.shortBrake i) else s
  let s := if l.state = .stopped then s.raise (.stopped i) else s
  let s := s.comesToRest 0 i
  (stopCues hit).foldl (fun s k => s.pulses l.cues[k].syncMask) s

/-- The step part of a moving advance. -/
def State.stepPart (s : State) (i : LaneId) : State :=
  let r := stepLane (s.lane i)
  if r.reached then s.landOn i r
  else
    let s := s.setLane i r.lane
    if r.lane.state = .stopped then (s.raise (.stopped i)).comesToRest 0 i else s

/-! ### Retirement (R36, R37) -/

/-- A cell whose right end has passed the window's left edge (R36). -/
def hasCrossed (l : Lane) (c : Cell) : Bool := decide (l.travel - c.entry ≥ (l.setup.width + c.width) * 64)

/-- The head of the visible items retires: it leaves the visible items, gives up its cell and its view, and is disposed
of by its passes remaining (R37). -/
def State.retire (s : State) (i : LaneId) (slot : Nat) (it : Item) : State :=
  let s := s.leaveView slot it.content
  let s := s.updItem slot fun it => { it with cell := none }
  let s := s.updLane i (Lane.dropItem slot)
  s.disposeItem i slot it.passes

/-- Retirement examines the visible items from the head and ends at the first that does not retire (R36). -/
def State.retireFrom (s : State) (i : LaneId) : List Nat → State
  | [] => s
  | slot :: rest =>
    match s.item? slot with
    | some it =>
      match it.cell with
      | some c => if hasCrossed (s.lane i) c then (s.retire i slot it).retireFrom i rest else s
      | none => s
    | none => s

def State.retirePart (s : State) (i : LaneId) : State := s.retireFrom i (s.lane i).visible

/-- The CLEAR stop: a lane still in RUN or BRAKE, its clearing flag set and nothing visible, stops (R23). -/
def State.clearPart (s : State) (i : LaneId) : State :=
  let l := s.lane i
  if l.isMoving && l.clearing && l.visible.isEmpty then
    let s := s.setLane i { l with state := .stopped, velocity := 0, brake := none }
    ((s.raise (.stopped i)).raise (.drained i)).comesToRest 0 i
  else s

/-! ### Entry (R38 to R41) -/

/-- The conditions under which the first queued item may enter, the queue apart (R38). -/
def Lane.mayEnter (l : Lane) : Bool :=
  !l.clearing && decide (l.travel ≥ l.nextEntry) && decide (l.travel < Config.maxTravel) &&
    decide (l.visible.length < Config.maxVisible)

/-- Entry formatting (R106): rendering, rendered style and rendered width. -/
def State.formatEntry (s : State) (i : LaneId) : Content → Rendering × Style × Nat
  | .quote code link =>
    let q := s.quoteView code link
    let fields := renderQuote (s.laneTemplate i) q
    (.quote fields, q.style, quoteWidth (s.laneFace i) fields)
  | .text id => (.text id, .ink, textWidth (s.laneFace i) (((s.text? id).map TextRec.codes).getD []))
  | .mark code => (.mark code, .ink, (s.laneFace i).advance code)

/-- A QUOTE whose symbol has no price cannot be formatted (R41). -/
def State.unformattable (s : State) : Content → Bool
  | .quote code link => (s.quoteView code link).price.isNone
  | _ => false

/-- The hold target an entering item places (R39): its travel, unless that lies beyond 2^48 − 1. -/
def holdTarget (l : Lane) (entry : Nat) (dwell : Option Nat) : List Target :=
  match dwell with
  | some d =>
    let t := entry + (l.setup.width - l.setup.holdPos) * 64
    if t ≤ Config.maxTravel then [{ travel := t, kind := .hold d }] else []
  | none => []

/-- The first queued item enters the window (R38, steps 1 to 8). -/
def State.enterItem (s : State) (i : LaneId) (tBefore : Nat) (slot : Nat) (it : Item) : State :=
  let l := s.lane i
  let entry := max l.nextEntry tBefore
  let (rendering, style, drawn) := s.formatEntry i it.content
  let w := max (max drawn it.minWidth) 1
  let cell : Cell := { entry := entry, width := w, rendering := rendering, style := style, flash := 0, flashDir := .up,
                       forcedStale := false }
  let s := s.updItem slot fun it => { it with cell := some cell }
  let s := s.setLane i { l with
    visible := l.visible ++ [slot]
    queued := l.queued.erase slot
    nextEntry := min (entry + (w + l.setup.gap) * 64) Config.maxTravel
    entries := l.entries + 1
    targets := (holdTarget l entry it.holdDwell).foldl (fun ts t => insertTarget t ts) l.targets }
  (s.raise (.entry i)).joinView slot it.content

/-- A QUOTE that cannot be formatted is passed over under SKIP (R41). -/
def State.skipItem (s : State) (i : LaneId) (slot : Nat) (it : Item) : State :=
  (s.updLane i (Lane.dropItem slot)).disposeItem i slot it.passes

/-- What entry has done so far in an advance: the state, the handles of the items that entered, and the items passed over. -/
structure EntryRun where
  state : State
  entered : List Nat
  passed : List Nat
  deriving DecidableEq, Repr

/-- Entry within one advance (R38, R40, R41): the first queued item enters or is passed over, and the next is considered,
until a condition fails or the front item is one already passed over. Each queued item is considered at most once, so
`fuel`, the queue's length at the start, suffices. -/
def enterItems (i : LaneId) (tBefore : Nat) : (fuel : Nat) → EntryRun → EntryRun
  | 0, r => r
  | fuel + 1, r =>
    match (r.state.lane i).queued with
    | [] => r
    | slot :: _ =>
      if !(r.state.lane i).mayEnter || decide (slot ∈ r.passed) then r
      else
        match r.state.item? slot with
        | none => r
        | some it =>
          if r.state.unformattable it.content then
            let s := r.state.raise (.formatFault i)
            match (s.lane i).setup.fault with
            | .skip => enterItems i tBefore fuel { r with state := s.skipItem i slot it, passed := slot :: r.passed }
            | .blank =>
              enterItems i tBefore fuel
                { r with state := s.enterItem i tBefore slot it, entered := r.entered ++ [s.pool.handle slot] }
          else
            enterItems i tBefore fuel
              { r with
                state := r.state.enterItem i tBefore slot it
                entered := r.entered ++ [r.state.pool.handle slot] }

def State.entryPart (s : State) (i : LaneId) (tBefore : Nat) : EntryRun :=
  enterItems i tBefore (s.lane i).queued.length { state := s, entered := [], passed := [] }

/-- Drain (R42): a lane in RUN whose run list is empty, with on-empty policy STOP, stops. -/
def State.drainPart (s : State) (i : LaneId) : State :=
  let l := s.lane i
  if decide (l.state = .run) && l.isEmpty && decide (l.setup.onEmpty = .stop) then
    let s := s.setLane i { l with state := .stopped, velocity := 0, brake := none }
    ((s.raise (.drained i)).raise (.stopped i)).comesToRest 0 i
  else s

/-! ### Cue evaluation (R56 to R61) -/

/-- The quantities of an advance that cues compare (R56). -/
structure CueView where
  travelBefore : Nat
  travelAfter : Nat
  entriesBefore : BitVec 32
  entriesAfter : BitVec 32
  runBefore : BitVec 32
  entered : List Nat
  deriving DecidableEq, Repr

/-- The before and after values of a source (R56). -/
def CueView.values (v : CueView) : CueSource → Nat × Nat
  | .travel => (v.travelBefore, v.travelAfter)
  | .entries => (v.entriesBefore.toNat, v.entriesAfter.toNat)
  | .runFrames => (v.runBefore.toNat, (v.runBefore + 1).toNat)
  | .itemEntry => (0, 0)

/-- The condition of a cue (R57). -/
def CueView.holds (v : CueView) (c : Cue) : Bool :=
  match c.source with
  | .itemEntry => decide (c.value ∈ v.entered)
  | src =>
    let (before, after) := v.values src
    match c.method with
    | .reach => decide (after ≥ c.value)
    | .cross => decide (before < c.value) && decide (after ≥ c.value)

/-- An ARMED cue that matches in the evaluation (R58); STOP_AT cues are not evaluated (R62). -/
def CueView.hits (v : CueView) (c : Cue) : Bool := c.armed && decide (c.action ≠ .stopAt) && v.holds c

def allCues : List CueId := [0, 1, 2, 3]

/-- The cues of a lane that match. -/
def CueView.matching (v : CueView) (l : Lane) : List CueId := allCues.filter fun k => v.hits l.cues[k]

/-- One match (R58): the cue is disarmed unless it repeats, its factor is raised and its pulses are sent. -/
def State.matchCue (s : State) (i : LaneId) (k : CueId) : State :=
  let c := (s.lane i).cues[k]
  let s := if c.repeats then s else s.updLane i fun l => l.disarmCue k
  (s.raise (.cue i k)).pulses c.syncMask

/-- LOAD_STAGED (R60). -/
def Lane.loadStaged (l : Lane) : Lane :=
  match l.staged with
  | some p => { l with cruise := p.cruise, accel := p.accel, staged := none }
  | none => l

/-- The actions of the matching cues, combined (R61): the staged record is loaded once, then the most abrupt stop acts. -/
def State.cueActions (s : State) (i : LaneId) (actions : List CueAction) : State :=
  let s := if .loadStaged ∈ actions then s.updLane i Lane.loadStaged else s
  if .stopNow ∈ actions then (s.applyStop 0 i .now).getD s
  else if .stopRamp ∈ actions then (s.applyStop 0 i .ramp).getD s
  else s

/-- The cue evaluation of an advance (R58, R61). -/
def State.cuePart (s : State) (i : LaneId) (v : CueView) : State :=
  let l := s.lane i
  let ks := v.matching l
  let actions := ks.map fun k => l.cues[k].action
  (ks.foldl (fun s k => s.matchCue i k) s).cueActions i actions

/-! ### The advance and the other answers (R5) -/

/-- A moving advance: its five parts in order, each seeing the results of the parts before it (R5). -/
def State.advance (s : State) (i : LaneId) : State :=
  let before := s.lane i
  let s := s.stepPart i
  let s := s.retirePart i
  let s := s.clearPart i
  let run := s.entryPart i before.travel
  let s := run.state.drainPart i
  let now := s.lane i
  let s := s.cuePart i
    { travelBefore := before.travel, travelAfter := now.travel, entriesBefore := before.entries,
      entriesAfter := now.entries, runBefore := before.runFrames, entered := run.entered }
  s.updLane i fun l => { l with runFrames := l.runFrames + 1 }

/-- A cell's flash count lowered by 1 when it is above 0 (R5). -/
def Item.countFlash (it : Item) : Item := { it with cell := it.cell.map fun c => { c with flash := c.flash - 1 } }

/-- The flash countdown of a lane's visible cells (R5). -/
def State.flashPart (s : State) (i : LaneId) : State :=
  (s.lane i).visible.foldl (fun s slot => s.updItem slot Item.countFlash) s

/-- A held lane counts its dwell (R53): the last count ends the hold. -/
def State.countDwell (s : State) (i : LaneId) : State :=
  if (s.lane i).dwell ≤ 1 then s.endHold i else s.updLane i fun l => { l with dwell := l.dwell - 1 }

/-- A lane ARMED whose condition was met by a cause late to reach it starts, once it has answered the frame start that
came first (R74). -/
def Lane.startDue (l : Lane) : Bool :=
  match l.state, l.arm with
  | .armed, some a => a.met
  | _, _ => false

/-- The lane answers a frame start (R5), by the state it holds when the frame start reaches it. -/
def State.answerFrame (s : State) (i : LaneId) : State :=
  match (s.lane i).state with
  | .off | .idle | .frozen => s
  | .armed =>
    let s := if (s.lane i).arm.any (fun a => decide (a.returns = .stopped)) then s.flashPart i else s
    if (s.lane i).startDue then s.startArmed i else s
  | .run | .brake => (s.flashPart i).advance i
  | .held => (s.flashPart i).countDwell i
  | .stopped => s.flashPart i

end Sys2Proof.Machine
end

