-- ==== Sys2Proof/Machine/Compose.lean ====
section
/-! DEFINITION. The latch, the colour of a cell at the latch, the picture a snapshot gives, and its pixels (R113, R143,
R151 to R153). -/
namespace Sys2Proof.Machine

/-! ### The latch -/

/-- The colour map entry of a QUOTE cell at the latch (R113). -/
def quoteColour (m : ColourMap) (symbolStale : Bool) (c : Cell) : Fin 16 :=
  if c.flash > 0 ∧ c.forcedStale = false then
    match c.flashDir with
    | .up => m.flashUp
    | .down => m.flashDown
  else if c.forcedStale ∨ symbolStale then m.stale
  else
    match c.style with
    | .halted => m.halted
    | .noPrice => m.noPrice
    | .up => m.up
    | .down => m.down
    | .flat | .ink => m.flat

/-- The palette entry of a visible item's cell at the latch: by R113 for a QUOTE, its ink for a TEXT or a MARK. -/
def State.cellColour (s : State) (i : LaneId) (it : Item) (c : Cell) : Fin 16 :=
  match it.content with
  | .quote _ link => quoteColour (s.laneTemplate i).colours ((s.symbol? link).any SymbolRec.stale) c
  | .text _ => it.ink
  | .mark _ => it.ink

/-- The latched cells of a lane, in run-list order (R143). -/
def State.cellShots (s : State) (i : LaneId) : List CellShot :=
  (s.lane i).visible.filterMap fun slot =>
    match s.item? slot with
    | some it =>
      it.cell.map fun c =>
        { entry := c.entry, width := c.width, rendering := c.rendering, colour := s.cellColour i it c }
    | none => none

/-- A lane latched (R143). -/
def State.laneShot (s : State) (i : LaneId) : LaneShot :=
  let l := s.lane i
  { lane := i, bandTop := l.setup.bandTop, bandHeight := l.setup.bandHeight, x0 := l.setup.x0, width := l.setup.width,
    face := l.setup.face, background := l.setup.background, smoothing := l.setup.smoothing, travel := l.travel,
    cells := s.cellShots i }

/-- The frame snapshot (R143): the palette, and every lane not in OFF with its visible cells. -/
def State.snapshot (s : State) : Snapshot :=
  { palette := s.compositor.palette
    lanes := (allLanes.filter fun i => decide ((s.lane i).state ≠ .off)).map s.laneShot }

/-! ### Drawing -/

/-- A code drawn from a face: its COMPLETE glyph, or blank at the default advance (R104, R105). -/
def drawCode (f : Face) (code : Byte) : DrawnEntry :=
  match f.usable code with
  | some g => .image g.advance g.image
  | none => .blank f.defaultAdvance

def drawEntry (f : Face) : GlyphEntry → DrawnEntry
  | .glyph c => drawCode f c
  | .gap w => .blank w

/-- The columns of a latched cell, read from the Glyph Store and the Text Pool as composition draws them (R105, R143). -/
def State.drawRendering (s : State) (f : Face) : Rendering → List DrawnEntry
  | .quote fields => (flatEntries fields).map (drawEntry f)
  | .text id => (((s.text? id).map TextRec.codes).getD []).map (drawCode f)
  | .mark code => [drawCode f code]

/-- The left edge of a cell in steps (R35, R152). -/
def leftEdge (x0 width travel entry : Nat) : Int := 64 * ((x0 : Int) + width) - ((travel : Int) - entry)

/-- The picture of a snapshot (R145). -/
def State.draw (s : State) (sn : Snapshot) : Picture :=
  sn.lanes.map fun l =>
    let face := s.faces[l.face]
    { lane := l.lane, bandTop := l.bandTop, bandHeight := l.bandHeight, faceHeight := face.height, x0 := l.x0,
      width := l.width, smoothing := l.smoothing, ground := sn.palette[l.background]
      cells := l.cells.map fun c =>
        { left := leftEdge l.x0 l.width l.travel c.entry, width := c.width, ink := sn.palette[c.colour],
          entries := s.drawRendering face c.rendering } }

/-! ### Pixels (R151 to R153) -/

/-- A pixel: fill (Y, Cb, Cr) and key (R142). -/
structure Pixel where
  y : Nat
  cb : Nat
  cr : Nat
  key : Nat
  deriving DecidableEq, Repr

/-- The pixel of the empty picture (R142). -/
def emptyPixel : Pixel := { y := 0, cb := 512, cr := 512, key := 0 }

def PaletteEntry.pixel (e : PaletteEntry) : Pixel := { y := e.y, cb := e.cb, cr := e.cr, key := e.gain }

/-- The coverage of pixel n of a glyph image: upper four bits of byte n div 2 if n is even, lower four if odd (R122). -/
def imagePixel (bytes : List Byte) (n : Nat) : Nat :=
  let b := (bytes.getD (n / 2) 0).toNat
  if n % 2 = 0 then b / 16 else b % 16

def DrawnEntry.width : DrawnEntry → Nat
  | .image a _ => a
  | .blank w => w

/-- The coverage of column i of row r over entries standing left to right from column 0 (R105, R122). -/
def coverAt : List DrawnEntry → (row col : Nat) → Nat
  | [], _, _ => 0
  | e :: es, r, i =>
    if i < e.width then
      match e with
      | .image a bytes => imagePixel bytes (r * a + i)
      | .blank _ => 0
    else coverAt es r (i - e.width)

/-- c[i] of R152: 0 for i below 0 and for i at or above w. -/
def DrawnCell.cover (c : DrawnCell) (row : Nat) (i : Int) : Nat :=
  if i < 0 ∨ i ≥ c.width then 0 else coverAt c.entries row i.toNat

/-- The value of a cell at an output column (R152). -/
def DrawnCell.value (c : DrawnCell) (smoothing : Bool) (row x : Nat) : Nat :=
  let u : Int := 64 * (x : Int) - c.left
  let i := u / 64
  let f := (u % 64).toNat
  if smoothing then (c.cover row i * (64 - f) + c.cover row (i + 1) * f + 32) / 64 else c.cover row i

/-- One component mixed (R153). -/
def mixComponent (i b v : Nat) : Nat := (i * v + b * (15 - v) + 7) / 15

/-- A glyph pixel with value v, in cell colour I over background B (R153). -/
def mixPixel (ink ground : PaletteEntry) (v : Nat) : Pixel :=
  { y := mixComponent ink.y ground.y v, cb := mixComponent ink.cb ground.cb v, cr := mixComponent ink.cr ground.cr v,
    key := mixComponent ink.gain ground.gain v }

/-- The cell with the largest value at a column, the earlier one among equals, with that value (R152). -/
def strongest (smoothing : Bool) (row x : Nat) : List DrawnCell → Option (DrawnCell × Nat)
  | [] => none
  | c :: cs =>
    let v := c.value smoothing row x
    match strongest smoothing row x cs with
    | some (d, w) => if w > v then some (d, w) else some (c, v)
    | none => some (c, v)

/-- The first glyph row's line (R152). -/
def DrawnLane.glyphTop (l : DrawnLane) : Nat := l.bandTop + (l.bandHeight - l.faceHeight) / 2

/-- The band contains the line (R151). -/
def DrawnLane.covers (l : DrawnLane) (y : Nat) : Bool := decide (l.bandTop ≤ y) && decide (y < l.bandTop + l.bandHeight)

/-- A pixel of a line within the lane's band (R151 to R153). -/
def DrawnLane.pixel (l : DrawnLane) (x y : Nat) : Pixel :=
  if l.x0 ≤ x ∧ x < l.x0 + l.width ∧ l.glyphTop ≤ y ∧ y < l.glyphTop + l.faceHeight then
    match strongest l.smoothing (y - l.glyphTop) x l.cells with
    | some (c, v) => if v = 0 then l.ground.pixel else mixPixel c.ink l.ground v
    | none => l.ground.pixel
  else l.ground.pixel

/-- The lane that draws a line: the highest-numbered one whose band contains it (R151). -/
def drawingLane (p : Picture) (y : Nat) : Option DrawnLane :=
  p.foldl (fun best l =>
    if l.covers y then
      match best with
      | some b => if b.lane ≤ l.lane then some l else some b
      | none => some l
    else best) none

/-- Pixel (x, y) of a picture (R151). -/
def pixelAt (p : Picture) (x y : Nat) : Pixel :=
  match drawingLane p y with
  | some l => l.pixel x y
  | none => emptyPixel

end Sys2Proof.Machine
end

