-- ==== Sys2Proof/Machine/Frame.lean ====
section
/-! DEFINITION. Frame starts and what answers them (R86, R130, R143, R146 to R148), and the lock of the Frame Clock
(R131 to R134). -/
namespace Sys2Proof.Machine

/-! ### Staleness (R86) -/

/-- The symbol becomes stale at a check made at counter c (R86). -/
def SymbolRec.due (r : SymbolRec) (timeout : Nat) (c : BitVec 32) : Bool :=
  decide (timeout > 0) && !r.stale && decide ((c - r.lastUpdate).toNat ≥ timeout)

/-- The staleness check of one symbol at the present frame counter: its flag is set, its view list offered and STALE
raised (R86, R87). -/
def State.checkSymbol (s : State) (slot : Nat) : State :=
  match s.symbol? slot with
  | some r =>
    if r.due s.classes[r.cls].staleTimeout s.clock.counter then
      ((s.updSymbol slot fun r => { r with stale := true }).offerView slot).raise .stale
    else s
  | none => s

/-- The staleness check of a frame start: every defined symbol in slot order (R86). -/
def State.checkSymbols (s : State) : State := (s.symbols.map Prod.fst).foldl State.checkSymbol s

/-! ### Freezing (R4, R147) -/

/-- A lane in RUN, BRAKE, HELD, ARMED or STOPPED becomes FROZEN and raises FROZEN; the others are unchanged (R147). -/
def State.freezeLane (s : State) (i : LaneId) : State :=
  let l := s.lane i
  match l.state with
  | .off | .idle | .frozen => s
  | .armed | .run | .brake | .held | .stopped =>
    (s.setLane i { l with state := .frozen, velocity := 0, brake := none, dwell := 0, arm := none }).raise (.frozen i)

/-! ### The frame start (R130) -/

/-- Every act a frame start may bring, in the order taken when none is given. -/
def defaultOrder : FrameOrder :=
  allLanes.map FrameAct.lane ++ [.symbols] ++ allLanes.map FrameAct.freeze

/-- An order completed: the acts listed, each once, then those left out. -/
def completeOrder (order : FrameOrder) : FrameOrder :=
  (order ++ defaultOrder).foldl (fun acc a => if a ∈ acc then acc else acc ++ [a]) []

/-- One act of a frame start; a freeze acts only when this frame start froze the output. -/
def State.frameAct (freezing : Bool) (s : State) (a : FrameAct) : State :=
  match a with
  | .lane i => s.answerFrame i
  | .symbols => s.checkSymbols
  | .freeze i => if freezing then s.freezeLane i else s

/-- The Compositor meets a frame start in COMPOSING under FREEZE: the overrun freezes the output (R147). -/
def Compositor.freezes (c : Compositor) : Bool := decide (c.state = .composing) && decide (c.policy = .freeze)

/-- The Compositor's own answer: latched in IDLE (R143); an overrun in COMPOSING, which goes on under REPEAT (R146) and
is abandoned under FREEZE (R147); nothing in HALTED (R148). It reads the lanes and stale flags as they have answered. -/
def State.compositorFrame (s : State) : State :=
  match s.compositor.state with
  | .idle => { s with compositor := { s.compositor with state := .composing, inFlight := some s.snapshot } }
  | .composing =>
    let s := s.raise .overrun
    match s.compositor.policy with
    | .repeatFrame => s
    | .freeze => { s with compositor := { s.compositor with state := .halted, inFlight := none } }
  | .halted => s

/-- A frame start made at an instant (R130): the counter rises, the timing origin moves to the instant, FRAME is raised,
and the frame start is delivered to the lanes, the Symbol Table and the Compositor. -/
def State.frameStart (s : State) (order : FrameOrder) (at_ : Nat) : State :=
  let s := { s with clock := { s.clock with now := at_, counter := s.clock.counter + 1, origin := at_ } }
  let s := s.raise .frame
  let freezing := s.compositor.freezes
  let s := (completeOrder order).foldl (State.frameAct freezing) s
  s.compositorFrame

/-! ### Time -/

/-- Ticks pass. -/
def State.elapse (s : State) (elapsed : Nat) : State :=
  { s with clock := { s.clock with now := s.clock.now + elapsed } }

/-- The window half-width h (section 7.1). -/
def FrameClock.halfWidth (c : FrameClock) : Nat := c.period / 200

/-- P ticks after the timing origin. -/
def FrameClock.periodDue (c : FrameClock) : Nat := c.origin + c.period

/-- P + h ticks after the timing origin: the end of the window (R134). -/
def FrameClock.windowDue (c : FrameClock) : Nat := c.origin + c.period + c.halfWidth

/-! ### The lock (R131 to R134) -/

/-- In FREE, SEEK and HOLDOVER a frame start is made P ticks after the timing origin (R131, R132); none is made while RESET
is asserted, since the first comes P ticks after its release (R129). -/
def State.periodExpiry (s : State) (order : FrameOrder) : State :=
  if s.clock.lock = .locked ∨ s.inReset = true then s else s.frameStart order (max s.clock.now s.clock.periodDue)

/-- In LOCKED, the end of the window with no pulse makes a frame start; the clock enters HOLDOVER, raises REF_LOST and sets
the consistent count to 0, keeping the previous pulse (R134). -/
def State.windowEnd (s : State) (order : FrameOrder) : State :=
  if s.clock.lock = .locked then
    let s := s.frameStart order (max s.clock.now s.clock.windowDue)
    { s with clock := { s.clock with lock := .holdover, consistent := 0 } }.raise .refLost
  else s

/-- The pulse came at the period spacing after the previous pulse, within the half-width, both ends included (R132). -/
def FrameClock.spaced (c : FrameClock) : Bool :=
  match c.previousPulse with
  | some p => decide (p + c.period ≤ c.now + c.halfWidth) && decide (c.now ≤ p + c.period + c.halfWidth)
  | none => false

/-- A pulse counted in SEEK or HOLDOVER (R132), which may lock the clock (R133): the locking pulse is a frame start when
it came at least half a period after the timing origin, and otherwise moves the origin to itself. -/
def State.countPulse (s : State) (order : FrameOrder) : State :=
  let c := s.clock
  let n := if c.spaced then c.consistent + 1 else 1
  let s := { s with clock := { c with consistent := n, previousPulse := some c.now } }
  if n ≥ c.relock then
    let s := { s with clock := { s.clock with lock := .locked } }.raise .locked
    if 2 * (c.now - c.origin) ≥ c.period then s.frameStart order c.now
    else { s with clock := { s.clock with origin := c.now } }
  else s

/-- A pulse in LOCKED, no later than the end of the window (R134): inside the window it is a frame start, before it the
clock enters HOLDOVER with count 1 and raises REF_LOST. It becomes the previous pulse. -/
def State.lockedPulse (s : State) (order : FrameOrder) : State :=
  let c := s.clock
  let s := { s with clock := { c with previousPulse := some c.now } }
  if c.now + c.halfWidth ≥ c.periodDue then s.frameStart order c.now
  else { s with clock := { s.clock with lock := .holdover, consistent := 1 } }.raise .refLost

/-- A reference pulse at the present tick (R131 to R134). A pulse that finds the clock LOCKED after the end of its window
comes after the expiry of that window, which is then made first. -/
def State.pulseAt (s : State) (order : FrameOrder) : State :=
  match s.clock.lock with
  | .free => s
  | .seek | .holdover => s.countPulse order
  | .locked =>
    if s.clock.now > s.clock.windowDue then
      let now := s.clock.now
      let s := { s with clock := { s.clock with now := s.clock.windowDue } }.windowEnd order
      { s with clock := { s.clock with now := now } }.countPulse order
    else s.lockedPulse order

end Sys2Proof.Machine
end

