-- ==== Sys2Proof/Machine/LinkPort.lean ====
section
/-! DEFINITION. The Link Port and the Request Decoder: the receiver (R167 to R169), the queues (R170, R171), and taking
and serving a request (R172, R173). -/
namespace Sys2Proof.Machine

/-! ### Outbound replies -/

/-- Outbound slots neither occupied nor reserved (R171). -/
def Link.freeSlots (k : Link) : Nat := Config.outboundSlots - k.outbound.length - (if k.decoder.isSome then 1 else 0)

/-- A reply joins the tail of the outbound queue; an idle transmitter begins sending the head (R171). -/
def Link.place (k : Link) (reply : Frame) : Link := { k with outbound := k.outbound ++ [reply], sending := true }

/-- The transmitter has sent the check byte of the reply it was sending: the slot is free, and the next reply begins
(R171). -/
def Link.sent (k : Link) : Link :=
  if k.sending then
    match k.outbound with
    | [] => { k with sending := false }
    | _ :: rest => { k with outbound := rest, sending := !rest.isEmpty }
  else k

/-! ### The receiver -/

/-- A good frame offered to the inbound queue (R170): it joins the tail, or, when the queue is full, QUEUE_FULL is raised
and a QUEUE_FULL reply is placed if an outbound slot is free. -/
def State.offerFrame (s : State) (f : Frame) : State :=
  if s.link.inbound.length < Config.inboundSlots then
    { s with link := { s.link with inbound := s.link.inbound ++ [f] } }
  else
    let s := s.raise .queueFull
    if s.link.freeSlots > 0 then { s with link := s.link.place (replyFrame f (bare .queueFull)) } else s

/-- The frame that held bytes (length, kind, tag, body, check) spell. -/
def frameOf (held : List Byte) : Frame :=
  { kind := held.getD 1 0, tag := held.getD 2 0, body := (held.drop 3).dropLast }

/-- The sum of R166 over the held bytes is a multiple of 256. -/
def sumGood (held : List Byte) : Bool := decide ((held.map BitVec.toNat).sum % 256 = 0)

/-- Bytes examined in order by the receiver at a tick (R167, R168). A bad frame puts its held bytes, from the length byte
on, back in front of the bytes still to examine. Each refusal uses up one marker, so fuel of the square of the number of
bytes suffices. -/
def State.examine (tick : Nat) : (fuel : Nat) → List Byte → State → State
  | 0, _, s => s
  | _ + 1, [], s => s
  | fuel + 1, b :: rest, s =>
    match s.link.receiver with
    | .hunting =>
      State.examine tick fuel rest
        (if b = Config.marker then { s with link := { s.link with receiver := .inFrame [] tick } } else s)
    | .inFrame buffer _ =>
      let held := buffer ++ [b]
      let len := (held.headD 0).toNat
      let hunting := { s with link := { s.link with receiver := .hunting } }
      if len < 2 ∨ len > 250 then
        State.examine tick fuel rest (hunting.raise .badFrame)
      else if held.length < len + 2 then
        State.examine tick fuel rest { s with link := { s.link with receiver := .inFrame held tick } }
      else if sumGood held then
        State.examine tick fuel rest (hunting.offerFrame (frameOf held))
      else
        State.examine tick fuel (held ++ rest) (hunting.raise .badFrame)

/-- Enough fuel for one byte that arrives with a full frame buffer: 253 bytes at most, held and arriving. -/
def examineFuel : Nat := 253 * 253

/-- A byte arrives (R167). -/
def State.byteArrives (s : State) (b : Byte) : State := State.examine s.clock.now examineFuel [b] s

/-- A partial frame is discarded and BAD_FRAME raised; nothing happens while hunting (R169). -/
def State.dropFrame (s : State) : State :=
  match s.link.receiver with
  | .hunting => s
  | .inFrame _ _ => { s with link := { s.link with receiver := .hunting } }.raise .badFrame

/-- The tick at which the running inter-byte timer expires (R169). -/
def Link.timerDue (k : Link) : Option Nat :=
  match k.receiver with
  | .hunting => none
  | .inFrame _ t => some (t + Config.interByteTicks)

/-- The inter-byte timer has run out before the present tick. -/
def State.timerOverdue (s : State) : Bool := s.link.timerDue.any fun t => decide (t < s.clock.now)

/-! ### The Request Decoder -/

/-- The free Decoder takes the head inbound frame once an outbound slot is free, reserving that slot (R172). -/
def Link.take (k : Link) : Link :=
  match k.decoder, k.inbound with
  | none, f :: rest => if k.freeSlots > 0 then { k with inbound := rest, decoder := some f } else k
  | _, _ => k

/-- The state in which the Decoder holds a request. That is this state when the Decoder holds it. It is this state with the
request taken when the whole link is at rest but for replies: RESET released, Decoder free, inbound queue empty, receiver
hunting, a slot free; the command then stands for the frame's bytes, its taking and its application with nothing between them
(notes/assumptions/1). Otherwise the request is not the one in hand. -/
def State.inHand (s : State) (f : Frame) : Option State :=
  match s.link.decoder with
  | some g => if g = f then some s else none
  | none =>
    if s.inReset = false ∧ s.link.receiver = .hunting ∧ s.link.inbound = [] ∧ s.link.freeSlots > 0 then
      some { s with link := { s.link with decoder := some f } }
    else none

/-- The reply to the request in hand occupies the reserved slot at the tail of the outbound queue, and the Decoder is free
(R172, R173). -/
def State.reply (s : State) (f : Frame) (r : Reply) : State :=
  { s with link := { s.link with decoder := none }.place (replyFrame f r) }

/-- The Decoder's work on the request it holds: BAD_LENGTH for a body that does not fit the kind, otherwise the request is
applied by the rule of the block that owns it; then the reply is placed (R172). A request that is not in hand changes
nothing. -/
def serve (kind tag : Byte) (body : List Byte) (rule : List Byte → State → State × Reply) (s : State) : State :=
  match s.inHand { kind := kind, tag := tag, body := body } with
  | none => s
  | some s =>
    if lengthFits kind body.length then
      let (s, r) := rule body s
      s.reply { kind := kind, tag := tag, body := body } r
    else s.reply { kind := kind, tag := tag, body := body } (bare .badLength)

/-- A request refused: nothing changes (R175). -/
def refuse (s : State) (r : Result) : State × Reply := (s, bare r)

/-- A request taken, with no data in its reply. -/
def accept (s : State) : State × Reply := (s, bare .ok)

end Sys2Proof.Machine
end

