-- ==== Sys2Proof/Machine/LaneCommands.lean ====
section
/-! DEFINITION. The lane requests (R15 to R27, R54, R69), the armed start (R74) and the dwell expiry (R53). -/
namespace Sys2Proof.Machine

abbrev Answer := Host.Outcome State Fault Refusal

/-- Every lane request whose lane number is 6 or more is answered BAD_PARAM, before every other check (R15). -/
def withLane (body : List Byte) (s : State) (rule : LaneId → State × Reply) : State × Reply :=
  match small? 6 (field body 0 1) with
  | some i => rule i
  | none => refuse s .badParam

/-! ### LANE_SETUP (R16) -/

/-- The set-up fields of a LANE_SETUP body, if each is in its range and they fit together (R1, R16); the face's height is
checked by the rule. -/
def setupOf (body : List Byte) : Option LaneSetup := do
  let bandTop := field body 1 2
  let bandHeight := field body 3 1
  let x0 := field body 4 2
  let width := field body 6 2
  let face ← small? 4 (field body 8 1)
  let template ← small? 8 (field body 9 1)
  let gap := field body 10 1
  let holdPos := field body 11 2
  let background ← small? 16 (field body 13 1)
  let smoothing ← bool? (field body 14 1)
  let onEmpty ← onEmpty? (field body 15 1)
  let fault ← faultPolicy? (field body 16 1)
  if bandTop ≤ 1079 ∧ 16 ≤ bandHeight ∧ bandHeight ≤ 128 ∧ bandTop + bandHeight ≤ 1080 ∧ x0 ≤ 1856 ∧ 64 ≤ width ∧
      width ≤ 1920 ∧ x0 + width ≤ 1920 ∧ holdPos ≤ width - 64 then
    some { bandTop, bandHeight, x0, width, face, template, gap, holdPos, background, smoothing, onEmpty, fault }
  else none

/-- LANE_SETUP (R16). -/
def laneSetupRule (body : List Byte) (s : State) : State × Reply :=
  withLane body s fun i =>
    if (s.lane i).inUse then refuse s .busy
    else
      match setupOf body with
      | none => refuse s .badParam
      | some p =>
        if p.bandHeight < s.faces[p.face].height then refuse s .badParam
        else accept (s.updLane i fun l => { l with setup := p, state := .idle })

def execLaneSetup (tag : Byte) (body : List Byte) (s : State) : Answer := .next (serve 0x10 tag body laneSetupRule s)

/-! ### LANE_OFF (R17) -/

/-- LANE_OFF (R17): an IDLE lane frees its queued items, disarms its cues, empties its target list and enters OFF. -/
def laneOffRule (body : List Byte) (s : State) : State × Reply :=
  withLane body s fun i =>
    if (s.lane i).state = .idle then
      let s := s.freeItems (s.lane i).queued
      accept (s.updLane i fun l => { l.disarmCues with state := .off, targets := [] })
    else refuse s .busy

def execLaneOff (tag : Byte) (body : List Byte) (s : State) : Answer := .next (serve 0x11 tag body laneOffRule s)

/-! ### LANE_START (R18, R19, R69) -/

/-- The immediate form, by the state of the lane (R18). -/
def startNow (s : State) (i : LaneId) : State × Reply :=
  let l := s.lane i
  match l.state with
  | .idle => accept (s.startFrom i .idle)
  | .stopped => accept (s.startFrom i .stopped)
  | .armed => accept (s.startArmed i)
  | .brake =>
    if l.brake = some .ramp then
      accept ((s.setLane i { l with state := .run, brake := none, clearing := false }).raise (.started i))
    else refuse s .noEffect
  | .run | .held => refuse s .noEffect
  | .off | .frozen => refuse s .busy

/-- The return state a lane may be armed from (R69). -/
def armsFrom : LaneState → Option ReturnState
  | .idle => some .idle
  | .stopped => some .stopped
  | .off | .armed | .run | .brake | .held | .frozen => none

/-- The condition of an armed start, its fields checked (R69). -/
def armConditionOf (i : LaneId) (code gpi mask : Nat) : Option ArmCondition :=
  match code with
  | 1 => (small? 4 gpi).map .gpi
  | 2 => some .sync
  | 3 => if mask = 0 ∨ mask ≥ 64 ∨ (BitVec.ofNat 6 mask).getLsbD i.val then none else some (.stopOf (BitVec.ofNat 6 mask))
  | _ => none

/-- The armed forms (R69). -/
def armRule (s : State) (i : LaneId) (code gpi mask : Nat) : State × Reply :=
  match armsFrom (s.lane i).state with
  | none => refuse s .busy
  | some returns =>
    match armConditionOf i code gpi mask with
    | none => refuse s .badParam
    | some c =>
      accept (s.updLane i fun l =>
        { l with state := .armed, velocity := 0, arm := some { condition := c, returns := returns, met := false } })

/-- LANE_START (R18, R69). -/
def laneStartRule (body : List Byte) (s : State) : State × Reply :=
  withLane body s fun i =>
    let code := field body 1 1
    if code > 3 then refuse s .badParam
    else if code = 0 then startNow s i
    else armRule s i code (field body 2 1) (field body 3 1)

def execLaneStart (tag : Byte) (body : List Byte) (s : State) : Answer := .next (serve 0x12 tag body laneStartRule s)

/-! ### LANE_STOP (R20 to R23) -/

/-- LANE_STOP (R20): a mode that is not a mode is BAD_PARAM; otherwise the table of R20. -/
def laneStopRule (late : LaneSet) (body : List Byte) (s : State) : State × Reply :=
  withLane body s fun i =>
    match stopMode? (field body 1 1) with
    | none => refuse s .badParam
    | some mode =>
      match s.applyStop late i mode with
      | some s' => accept s'
      | none => refuse s .noEffect

def execLaneStop (late : LaneSet) (tag : Byte) (body : List Byte) (s : State) : Answer :=
  .next (serve 0x13 tag body (laneStopRule late) s)

/-! ### LANE_SPEED and LANE_STAGE (R24, R25) -/

/-- LANE_SPEED (R24): the values are held to their ranges. -/
def laneSpeedRule (body : List Byte) (s : State) : State × Reply :=
  withLane body s fun i =>
    if (s.lane i).state = .off then refuse s .busy
    else
      accept (s.updLane i fun l =>
        { l with
          cruise := min (field body 1 2) Config.maxVelocity
          accel := min (max (field body 3 2) 1) Config.maxAccel })

def execLaneSpeed (tag : Byte) (body : List Byte) (s : State) : Answer := .next (serve 0x14 tag body laneSpeedRule s)

/-- LANE_STAGE (R25). -/
def laneStageRule (body : List Byte) (s : State) : State × Reply :=
  withLane body s fun i =>
    let vc := field body 1 2
    let a := field body 3 2
    if (s.lane i).state = .off then refuse s .busy
    else if a = 0 then accept (s.updLane i fun l => { l with staged := none })
    else if vc > Config.maxVelocity ∨ a > Config.maxAccel then refuse s .badParam
    else accept (s.updLane i fun l => { l with staged := some { cruise := vc, accel := a } })

def execLaneStage (tag : Byte) (body : List Byte) (s : State) : Answer := .next (serve 0x15 tag body laneStageRule s)

/-! ### LANE_RESET (R26) -/

/-- The motion record after a reset of the lane; the set-up fields, Vc and A are kept (R26, R28), and so are the other
fields of the cues (R68). -/
def Lane.resetMotion (l : Lane) : Lane :=
  { l.disarmCues with
    travel := 0, velocity := 0, nextEntry := 0, staged := none, brake := none, clearing := false, dwell := 0, entries := 0,
    runFrames := 0, targets := [], arm := none }

/-- LANE_RESET (R26): every item of the lane is freed, visible and queued, and the lane enters IDLE. -/
def laneResetRule (body : List Byte) (s : State) : State × Reply :=
  withLane body s fun i =>
    if (s.lane i).state = .off then refuse s .busy
    else
      let s := s.freeItems ((s.lane i).visible ++ (s.lane i).queued)
      accept (s.updLane i fun l => { l.resetMotion with state := .idle })

def execLaneReset (tag : Byte) (body : List Byte) (s : State) : Answer := .next (serve 0x16 tag body laneResetRule s)

/-! ### LANE_QUERY (R27) -/

/-- The reply fields of LANE_QUERY (R27). -/
def laneReport (l : Lane) : List Byte :=
  be 1 l.state.code ++ be 1 (brakeCode l.brake) ++ boolByte l.clearing ++ be 6 l.travel ++ be 2 l.velocity ++
    be 2 l.cruise ++ be 2 l.accel ++ be 1 l.visible.length ++ be 2 l.queued.length ++ boolByte (!l.targets.isEmpty) ++
    be 6 ((l.targets.head?.map Target.travel).getD 0) ++ be 2 l.dwell ++ be 4 l.entries.toNat ++ be 4 l.runFrames.toNat

def laneQueryRule (body : List Byte) (s : State) : State × Reply :=
  withLane body s fun i => (s, okWith (laneReport (s.lane i)))

def execLaneQuery (tag : Byte) (body : List Byte) (s : State) : Answer := .next (serve 0x17 tag body laneQueryRule s)

/-! ### HOLD_RELEASE (R54) -/

/-- HOLD_RELEASE (R54). -/
def holdReleaseRule (body : List Byte) (s : State) : State × Reply :=
  withLane body s fun i => if (s.lane i).state = .held then accept (s.endHold i) else refuse s .noEffect

def execHoldRelease (tag : Byte) (body : List Byte) (s : State) : Answer :=
  .next (serve 0x30 tag body holdReleaseRule s)

/-! ### ARMED_START and HOLD_DWELL_EXPIRY -/

/-- ARMED_START (R74): an ARMED lane whose condition has been met starts from its return state. -/
def execArmedStart (lane : LaneId) (s : State) : Answer :=
  .next (if (s.lane lane).startDue then s.startArmed lane else s)

/-- HOLD_DWELL_EXPIRY (R53): the dwell of a held lane reaches 0, counted down from its last frame. The frame starts count
dwells themselves; this row is that last count on its own (notes/assumptions/5). -/
def execHoldDwellExpiry (lane : LaneId) (s : State) : Answer :=
  .next (if (s.lane lane).state = .held ∧ (s.lane lane).dwell ≤ 1 then s.endHold lane else s)

end Sys2Proof.Machine
end

