-- ==== Sys2Proof/Machine/ClockCommands.lean ====
section
/-! DEFINITION. The Frame Clock and GPI requests (R135, R136, R140), the timers and pins (R131 to R134, R138, R139) and
power-on reset. -/
namespace Sys2Proof.Machine

/-! ### TIMING_SETUP (R135) -/

/-- The clock after TIMING_SETUP took a source, a period and a relock count (R135, the table). -/
def FrameClock.setUp (c : FrameClock) (source : ClockSource) (period relock : Nat) : FrameClock :=
  let c' := { c with source := source, period := period, relock := relock }
  match source with
  | .free => { c' with lock := .free, consistent := 0, previousPulse := none }
  | .reference =>
    if c.lock = .free ∨ period ≠ c.period then { c' with lock := .seek, consistent := 0, previousPulse := none } else c'

/-- The next frame start, measured by P from the timing origin kept, has already passed: the period changed, or a clock
that was LOCKED no longer waits for its window (R135, R131; notes/assumptions/9). -/
def FrameClock.startOverdue (old new : FrameClock) : Bool :=
  (decide (new.period ≠ old.period) || decide (old.lock = .locked)) && decide (new.lock ≠ .locked) &&
    decide (new.periodDue < new.now)

/-- TIMING_SETUP (R135). -/
def timingSetupRule (order : FrameOrder) (body : List Byte) (s : State) : State × Reply :=
  let period := field body 1 4
  let relock := field body 5 1
  match clockSource? (field body 0 1) with
  | none => refuse s .badParam
  | some source =>
    if period < 270000 ∨ period > 2700000 ∨ relock = 0 then refuse s .badParam
    else
      let c := s.clock.setUp source period relock
      let late := s.clock.startOverdue c
      let s := { s with clock := c }
      accept (if late then s.frameStart order c.now else s)

def execTimingSetup (elapsed : Nat) (order : FrameOrder) (tag : Byte) (body : List Byte) (s : State) : Answer :=
  .next (serve 0x70 tag body (timingSetupRule order) (s.elapse elapsed))

/-! ### TIMING_QUERY and GPI_SETUP (R136, R140) -/

/-- The counted levels as one byte, bit n for GPI n (R136). -/
def gpiLevels (g : Vector Gpi 4) : Nat :=
  (if g[0].counted then 1 else 0) + (if g[1].counted then 2 else 0) + (if g[2].counted then 4 else 0) +
    (if g[3].counted then 8 else 0)

/-- The reply fields of TIMING_QUERY (R136). -/
def timingReport (s : State) : List Byte :=
  let c := s.clock
  be 1 c.source.code ++ be 1 c.lock.code ++ be 4 c.period ++ be 1 c.relock ++ be 1 c.consistent ++
    be 4 c.counter.toNat ++ be 1 (gpiLevels s.gpi) ++ s.gpi.toList.flatMap fun g => be 1 g.edge.code

def timingQueryRule (_body : List Byte) (s : State) : State × Reply := (s, okWith (timingReport s))

def execTimingQuery (tag : Byte) (body : List Byte) (s : State) : Answer := .next (serve 0x71 tag body timingQueryRule s)

def State.setGpi (s : State) (n : GpiId) (g : Gpi) : State := { s with gpi := s.gpi.set n g }

/-- GPI_SETUP (R140). -/
def gpiSetupRule (body : List Byte) (s : State) : State × Reply :=
  match small? 4 (field body 0 1), edgeKind? (field body 1 1) with
  | some n, some e => accept (s.setGpi n { s.gpi[n] with edge := e })
  | _, _ => refuse s .badParam

def execGpiSetup (tag : Byte) (body : List Byte) (s : State) : Answer := .next (serve 0x72 tag body gpiSetupRule s)

/-! ### Frame starts by timers and pulses -/

/-- FRAME_PERIOD_EXPIRY (R131, R132): in FREE, SEEK or HOLDOVER a frame start is made P ticks after the timing origin. -/
def execFramePeriodExpiry (order : FrameOrder) (s : State) : Answer := .next (s.periodExpiry order)

/-- WINDOW_EXPIRY (R134): in LOCKED, P + h ticks with no pulse. -/
def execWindowExpiry (order : FrameOrder) (s : State) : Answer := .next (s.windowEnd order)

/-- REFERENCE_PULSE (R131 to R134). -/
def execReferencePulse (elapsed : Nat) (order : FrameOrder) (s : State) : Answer :=
  .next ((s.elapse elapsed).pulseAt order)

/-! ### GPI inputs (R138, R139) -/

/-- The edge kind selects a counted change to a level (R139). -/
def EdgeKind.selects : EdgeKind → Bool → Bool
  | .none, _ => false
  | .rise, level => level
  | .fall, level => !level
  | .both, _ => true

/-- A lane ARMED on a GPI input. -/
def Lane.awaitsGpi (l : Lane) (n : GpiId) : Bool :=
  match l.state, l.arm with
  | .armed, some a => decide (a.condition = .gpi n)
  | _, _ => false

/-- An edge of a GPI input (R139): GPIn is raised, and the edge is sent to every lane; those armed on it start (R71). -/
def State.gpiEdge (s : State) (late : LaneSet) (n : GpiId) : State :=
  let s := s.raise (.gpiEdge n)
  (allLanes.filter fun i => (s.lane i).awaitsGpi n).foldl (State.meetCondition late) s

/-- The input has stood at its new level for the debounce time: the counted level takes it, the timer is cleared, and the
change is an edge when the edge kind selects it (R138, R139). -/
def State.countedChange (s : State) (late : LaneSet) (n : GpiId) : State :=
  let g := s.gpi[n]
  let s := s.setGpi n { g with counted := g.level, debounce := none }
  if g.edge.selects g.level then s.gpiEdge late n else s

/-- The tick at which a running debounce timer expires (R138). -/
def Gpi.due (g : Gpi) : Option Nat := g.debounce.map (· + Config.debounceTicks)

/-- The level at a GPI input changes at the present tick (R138): the timer starts when the input leaves its counted level
and is cleared when it returns. A timer that has run its time by then expires first. While RESET is asserted the counted
level follows the input, so that at the release it is the level standing there and no edge is counted for it. -/
def State.levelChange (s : State) (n : GpiId) : State :=
  let now := s.clock.now
  if s.inReset then s.setGpi n (Gpi.powerOn !s.gpi[n].level)
  else
  let s := if s.gpi[n].due.any (fun t => decide (t ≤ now)) then s.countedChange 0 n else s
  let g := s.gpi[n]
  let level := !g.level
  s.setGpi n { g with level := level, debounce := if level = g.counted then none else some now }

/-- GPI_LEVEL_CHANGE (R138). -/
def execGpiLevelChange (elapsed : Nat) (input : GpiId) (s : State) : Answer :=
  .next ((s.elapse elapsed).levelChange input)

/-- GPI_DEBOUNCE_EXPIRY (R138, R139): the running timer reaches 27,000 ticks; nothing happens when none runs. -/
def execGpiDebounceExpiry (input : GpiId) (late : LaneSet) (s : State) : Answer :=
  .next (match s.gpi[input].due with
    | none => s
    | some t => { s with clock := { s.clock with now := max s.clock.now t } }.countedChange late input)

/-! ### Power-on reset -/

/-- POWER_ON_RESET: the RESET input is asserted or released. Every block takes its power-on values at the assertion, and
its values at the release count from there: the timing origin (R129) and the counted levels (R138). A release that finds
RESET not asserted stands for an assertion and a release with nothing between them. The timebase runs on, and the commands
that wait still wait. -/
def execPowerOnReset (edge : ResetEdge) (s : State) : Answer :=
  .next (State.powerOn edge.asserted (s.clock.now + edge.elapsed) (s.gpi.map Gpi.level) s.pending)

end Sys2Proof.Machine
end

