-- ==== Sys2Proof/Machine/CueCommands.lean ====
section
/-! DEFINITION. The cue requests (R64 to R67). -/
namespace Sys2Proof.Machine

/-- A lane number of 6 or more, or a cue index of 4 or more, is BAD_PARAM before every other check (section 3.3). -/
def withCue (body : List Byte) (s : State) (rule : LaneId → CueId → State × Reply) : State × Reply :=
  match small? 6 (field body 0 1), small? 4 (field body 1 1) with
  | some i, some k => rule i k
  | _, _ => refuse s .badParam

/-- The largest value a source takes (R55, R64). -/
def valueLimit : CueSource → Nat
  | .travel => 2 ^ 48 - 1
  | .entries | .runFrames => 2 ^ 32 - 1
  | .itemEntry => 0xFFFF

/-- The record of a CUE_SET body, ARMED, if the fields pass check 3 of R64. -/
def cueOf (body : List Byte) : Option Cue := do
  let source ← cueSource? (field body 2 1)
  let method ← cueMethod? (field body 3 1)
  let value := field body 4 6
  let action ← cueAction? (field body 10 1)
  let mask := field body 11 1
  let repeats ← bool? (field body 12 1)
  if mask ≥ 64 ∨ (repeats = true ∧ source ≠ .itemEntry) ∨ value > valueLimit source ∨
      (action = .stopAt ∧ (source ≠ .travel ∨ method ≠ .reach)) then none
  else some { source, method, value, action, syncMask := BitVec.ofNat 6 mask, repeats, armed := true }

/-- Where a source stands as the lane holds it (R64, check 6); ITEM_ENTRY stands nowhere. -/
def sourceStands (l : Lane) : CueSource → Option Nat
  | .travel => some l.travel
  | .entries => some l.entries.toNat
  | .runFrames => some l.runFrames.toNat
  | .itemEntry => none

/-- Checks 4 to 6 of R64: the first that fails. -/
def cueRefusal (s : State) (i : LaneId) (c : Cue) : Option Result :=
  let l := s.lane i
  let item :=
    if c.source = .itemEntry then
      match s.resolve c.value with
      | none => some Result.noItem
      | some (_, it) => if it.lane = i then none else some .badParam
    else none
  match item with
  | some r => some r
  | none =>
    if c.action = .stopAt ∧ c.value ≤ l.travel then some .passed
    else if c.method = .cross ∧ (sourceStands l c.source).any (fun v => decide (v ≥ c.value)) then some .passed
    else none

/-- The target list without the old stop target of cue k, when it was ARMED with STOP_AT (R65, R66). -/
def Lane.dropCueTarget (l : Lane) (k : CueId) : Lane :=
  if l.cues[k].armed ∧ l.cues[k].action = .stopAt then { l with targets := dropStopTarget k l.targets } else l

/-- A CUE_SET that passes every check (R65). -/
def Lane.takeCue (l : Lane) (k : CueId) (c : Cue) : Lane :=
  let l := (l.dropCueTarget k).setCue k c
  if c.action = .stopAt then { l with targets := insertTarget { travel := c.value, kind := .stop k } l.targets } else l

/-- CUE_SET (R64, R65). -/
def cueSetRule (body : List Byte) (s : State) : State × Reply :=
  withCue body s fun i k =>
    if (s.lane i).state = .off then refuse s .busy
    else
      match cueOf body with
      | none => refuse s .badParam
      | some c =>
        match cueRefusal s i c with
        | some r => refuse s r
        | none => accept (s.updLane i fun l => l.takeCue k c)

def execCueSet (tag : Byte) (body : List Byte) (s : State) : Answer := .next (serve 0x31 tag body cueSetRule s)

/-- CUE_CLEAR (R66). -/
def cueClearRule (body : List Byte) (s : State) : State × Reply :=
  withCue body s fun i k =>
    if (s.lane i).cues[k].armed then accept (s.updLane i fun l => (l.dropCueTarget k).disarmCue k)
    else refuse s .noEffect

def execCueClear (tag : Byte) (body : List Byte) (s : State) : Answer := .next (serve 0x32 tag body cueClearRule s)

/-- The reply fields of CUE_QUERY (R67). -/
def cueReport (c : Cue) : List Byte :=
  boolByte c.armed ++ be 1 c.source.code ++ be 1 c.method.code ++ be 6 c.value ++ be 1 c.action.code ++
    be 1 c.syncMask.toNat ++ boolByte c.repeats

def cueQueryRule (body : List Byte) (s : State) : State × Reply :=
  withCue body s fun i k => (s, okWith (cueReport (s.lane i).cues[k]))

def execCueQuery (tag : Byte) (body : List Byte) (s : State) : Answer := .next (serve 0x33 tag body cueQueryRule s)

end Sys2Proof.Machine
end

