-- ==== Sys2Proof/Machine/EventCommands.lean ====
section
/-! DEFINITION. The Event Unit requests (R157 to R161, R163). -/
namespace Sys2Proof.Machine

def allGroups : List GroupId := [0, 1, 2, 3, 4, 5, 6, 7, 8, 9]

def EventUnit.setGroup (u : EventUnit) (g : GroupId) (r : Group) : EventUnit := { u with groups := u.groups.set g r }

/-- A request that names a group; a code above 9 is BAD_PARAM. -/
def withGroup (body : List Byte) (s : State) (rule : GroupId → State × Reply) : State × Reply :=
  match small? 10 (field body 0 1) with
  | some g => rule g
  | none => refuse s .badParam

/-- EVENT_ENABLE (R157). -/
def eventEnableRule (body : List Byte) (s : State) : State × Reply :=
  withGroup body s fun g =>
    let r := s.events.groups[g]
    let enable := BitVec.ofNat 16 (field body 1 2) &&& eventPlaces g
    let pending := r.pending &&& (enable ||| errorPlaces g)
    ({ s with events := s.events.setGroup g { r with enable := enable, pending := pending } }, okWith (be 2 enable.toNat))

def execEventEnable (tag : Byte) (body : List Byte) (s : State) : Answer := .next (serve 0x08 tag body eventEnableRule s)

/-- EVENT_PRIORITY (R158). -/
def eventPriorityRule (body : List Byte) (s : State) : State × Reply :=
  withGroup body s fun g =>
    match small? 4 (field body 1 1) with
    | some level => accept { s with events := s.events.setGroup g { s.events.groups[g] with level := level } }
    | none => refuse s .badParam

def execEventPriority (tag : Byte) (body : List Byte) (s : State) : Answer :=
  .next (serve 0x09 tag body eventPriorityRule s)

/-- A group with a factor pending. -/
def EventUnit.isPending (u : EventUnit) (g : GroupId) : Bool := u.groups[g].pending != 0

/-- Bit g set for each group with a factor pending (R159). -/
def EventUnit.summary (u : EventUnit) : Nat := ((allGroups.filter u.isPending).map fun g => 2 ^ g.val).sum

/-- EVENT_SUMMARY (R159). -/
def eventSummaryRule (_body : List Byte) (s : State) : State × Reply :=
  (s, okWith (be 2 s.events.summary ++ boolByte s.events.attn ++ boolByte s.events.mask))

def execEventSummary (tag : Byte) (body : List Byte) (s : State) : Answer :=
  .next (serve 0x0A tag body eventSummaryRule s)

/-- The group EVENT_NEXT chooses: of the groups pending, the highest level, and of those the first in polling order
(R160). -/
def EventUnit.chosen (u : EventUnit) : Option GroupId :=
  (allGroups.filter u.isPending).foldl (fun best g =>
    match best with
    | none => some g
    | some b => if u.groups[g].level > u.groups[b].level then some g else some b) none

/-- The pending factors of a group are read and cleared (R160, R161). -/
def EventUnit.clear (u : EventUnit) (g : GroupId) : EventUnit := u.setGroup g { u.groups[g] with pending := 0 }

/-- EVENT_NEXT (R160). -/
def eventNextRule (_body : List Byte) (s : State) : State × Reply :=
  match s.events.chosen with
  | none => (s, okWith (be 1 0xFF ++ be 1 0 ++ be 2 0))
  | some g =>
    let r := s.events.groups[g]
    ({ s with events := s.events.clear g }, okWith (be 1 g.val ++ be 1 r.level.val ++ be 2 r.pending.toNat))

def execEventNext (tag : Byte) (body : List Byte) (s : State) : Answer := .next (serve 0x0B tag body eventNextRule s)

/-- EVENT_READ (R161). -/
def eventReadRule (body : List Byte) (s : State) : State × Reply :=
  withGroup body s fun g =>
    ({ s with events := s.events.clear g }, okWith (be 2 s.events.groups[g].pending.toNat))

def execEventRead (tag : Byte) (body : List Byte) (s : State) : Answer := .next (serve 0x0C tag body eventReadRule s)

/-- ATTN_MASK (R163). -/
def attnMaskRule (body : List Byte) (s : State) : State × Reply :=
  match bool? (field body 0 1) with
  | some m => accept { s with events := { s.events with mask := m } }
  | none => refuse s .badParam

def execAttnMask (tag : Byte) (body : List Byte) (s : State) : Answer := .next (serve 0x0D tag body attnMaskRule s)

end Sys2Proof.Machine
end

