-- ==== Sys2Proof/Machine/FormatterCommands.lean ====
section
/-! DEFINITION. The template requests (R94, R96) and the refresh formatting (R108, R110 to R112). -/
namespace Sys2Proof.Machine

/-! ### TEMPLATE_SET (R94, R95) -/

/-- One field slot of 10 bytes, if its kind and its count are in range (R94). -/
def templateField? (slot : List Byte) : Option TemplateField :=
  let p := field slot 1 1
  match field slot 0 1 with
  | 0 => some .symbol
  | 1 => some .price
  | 2 => some .change
  | 3 => some .percent
  | 4 => some .arrow
  | 5 => some (.gap p)
  | 6 => if p = 0 ∨ p > 8 then none else some (.literal (fieldBytes slot 2 p))
  | _ => none

/-- The first `n` field slots, from byte 30 of the body on. -/
def templateFields? (body : List Byte) : (n at_ : Nat) → Option (List TemplateField)
  | 0, _ => some []
  | n + 1, at_ => do
    let f ← templateField? (fieldBytes body at_ 10)
    let fs ← templateFields? body n (at_ + 10)
    return f :: fs

/-- The template of a TEMPLATE_SET body, if every field passes check 1 of R94. -/
def templateOf (body : List Byte) : Option Template := do
  let code := fun k => body.getD (2 + k) 0
  let grouping ← bool? (field body 1 1)
  if field body 2 1 > 246 then none
  let up ← small? 16 (field body 12 1)
  let down ← small? 16 (field body 13 1)
  let flat ← small? 16 (field body 14 1)
  let halted ← small? 16 (field body 15 1)
  let stale ← small? 16 (field body 16 1)
  let flashUp ← small? 16 (field body 17 1)
  let flashDown ← small? 16 (field body 18 1)
  let noPrice ← small? 16 (field body 19 1)
  let haltLength := field body 20 1
  let count := field body 29 1
  if haltLength = 0 ∨ haltLength > 8 ∨ count = 0 ∨ count > 8 then none
  let fields ← templateFields? body count 30
  return {
    fields := fields
    numerals :=
      { digit0 := code 0, point := code 1, separator := code 2, plus := code 3, minus := code 4, percent := code 5,
        up := code 6, down := code 7, flat := code 8, noValue := code 9 }
    halt := fieldBytes body 21 haltLength
    grouping := grouping
    colours := { up, down, flat, halted, stale, flashUp, flashDown, noPrice } }

/-- A lane in a state other than OFF and IDLE names the template (R94, check 3). -/
def State.templateInUse (s : State) (n : Fin 8) : Bool :=
  allLanes.any fun i => (s.lane i).inUse && decide ((s.lane i).setup.template = n)

/-- TEMPLATE_SET (R94). -/
def templateSetRule (body : List Byte) (s : State) : State × Reply :=
  match small? 8 (field body 0 1), templateOf body with
  | some n, some t =>
    if worstCount t > Config.maxGlyphEntries then refuse s .tooLong
    else if s.templateInUse n then refuse s .inUse
    else accept { s with formatter := { s.formatter with templates := s.formatter.templates.set n t } }
  | _, _ => refuse s .badParam

def execTemplateSet (tag : Byte) (body : List Byte) (s : State) : Answer :=
  .next (serve 0x50 tag body templateSetRule s)

/-! ### TEMPLATE_QUERY (R96) -/

/-- Codes in a place of 8 bytes, 0 beyond them. -/
def eightBytes (codes : List Byte) : List Byte := codes ++ List.replicate (8 - codes.length) 0

/-- A stored field slot (R94): every byte not examined is 0. -/
def fieldSlot : TemplateField → List Byte
  | .symbol => be 1 0 ++ be 1 0 ++ eightBytes []
  | .price => be 1 1 ++ be 1 0 ++ eightBytes []
  | .change => be 1 2 ++ be 1 0 ++ eightBytes []
  | .percent => be 1 3 ++ be 1 0 ++ eightBytes []
  | .arrow => be 1 4 ++ be 1 0 ++ eightBytes []
  | .gap w => be 1 5 ++ be 1 w ++ eightBytes []
  | .literal codes => be 1 6 ++ be 1 codes.length ++ eightBytes codes

/-- The 109 bytes of a stored template (R96). -/
def templateBytes (t : Template) : List Byte :=
  let m := t.numerals
  let c := t.colours
  boolByte t.grouping ++
    [m.digit0, m.point, m.separator, m.plus, m.minus, m.percent, m.up, m.down, m.flat, m.noValue] ++
    [c.up, c.down, c.flat, c.halted, c.stale, c.flashUp, c.flashDown, c.noPrice].flatMap (fun x => be 1 x.val) ++
    be 1 t.halt.length ++ eightBytes t.halt ++ be 1 t.fields.length ++ t.fields.flatMap fieldSlot ++
    List.replicate (10 * (8 - t.fields.length)) 0

/-- TEMPLATE_QUERY (R96). -/
def templateQueryRule (body : List Byte) (s : State) : State × Reply :=
  match small? 8 (field body 0 1) with
  | none => refuse s .badParam
  | some n =>
    let t := s.formatter.templates[n]
    (s, okWith (be 1 (worstCount t) ++ templateBytes t))

def execTemplateQuery (tag : Byte) (body : List Byte) (s : State) : Answer :=
  .next (serve 0x51 tag body templateQueryRule s)

/-! ### The refresh formatting -/

/-- REFRESH_TAKE (R108). An offer and a completion take at once themselves; this row is the take on its own. -/
def execRefreshTake (s : State) : Answer := .next s.takeRefresh

/-- A publication of a formatting starts a flash (R111): the template has a PRICE field, the PRICE field changed in its
codes, the values read show TRADING with two present and unequal prices, and the style before was neither HALTED nor
NO_PRICE. The direction is given. -/
def flashOf (f : Formatting) (c : Cell) : Option Direction :=
  let before := match c.rendering with | .quote fields => priceEntries fields | _ => []
  if f.fields.any (fun x => decide (x.kind = .price)) ∧ priceEntries f.fields ≠ before ∧ f.halted = false ∧
      c.style ≠ .halted ∧ c.style ≠ .noPrice then
    match f.price, f.previous with
    | some p, some q => if p > q then some .up else if p < q then some .down else none
    | _, _ => none
  else none

/-- The cell after a publication (R110, R111). -/
def publish (f : Formatting) (flashLength : Nat) (c : Cell) : Cell :=
  let c' := { c with rendering := .quote f.fields, style := f.style, forcedStale := c.forcedStale && f.overtaken }
  match flashOf f c with
  | some d => { c' with flash := flashLength, flashDir := d }
  | none => c'

/-- The flash length of the class of the symbol an item shows, as the class record stands (R111). -/
def State.flashLength (s : State) (it : Item) : Nat :=
  match it.content with
  | .quote _ link =>
    match s.symbol? link with
    | some r => s.classes[r.cls].flashLength
    | none => 0
  | _ => 0

/-- What a completed formatting does to its item's cell: nothing when it is discarded, publication when it fits (R110), and
an update held otherwise (R112). -/
def State.concludeRefresh (s : State) (f : Formatting) : State :=
  if f.discarded then s
  else
    match s.item? f.item with
    | none => s
    | some it =>
      match it.cell with
      | none => s
      | some c =>
        if f.width ≤ c.width then
          let n := s.flashLength it
          s.updItem f.item fun it => { it with cell := it.cell.map (publish f n) }
        else (s.updItem f.item Item.forceStale).raise (.updateHeld it.lane)

/-- REFRESH_COMPLETE (R110 to R112): the formatting in flight completes; the Formatter is then free and takes the next
head if there is one. -/
def execRefreshComplete (s : State) : Answer :=
  match s.formatter.inFlight with
  | none => .next s
  | some f =>
    let s := s.concludeRefresh f
    .next (State.takeRefresh { s with formatter := { s.formatter with inFlight := none } })

end Sys2Proof.Machine
end

