-- ==== Sys2Proof/Machine/ItemCommands.lean ====
section
/-! DEFINITION. The item requests (R44 to R51). -/
namespace Sys2Proof.Machine

/-- The content of an item request looked up (R44, step 4): the symbol code as its 8 bytes stand, or the first byte as a
text id or a glyph code. -/
def contentOf (s : State) (kind : Nat) (content : List Byte) : Except Result Content :=
  match kind with
  | 0 =>
    match findCode s.symbols content with
    | some (slot, _) => .ok (.quote content slot)
    | none => .error .noSymbol
  | 1 =>
    match s.text? (field content 0 1) with
    | some _ => .ok (.text (field content 0 1))
    | none => .error .noText
  | _ => .ok (.mark (content.headD 0))

/-- A hold dwell field: 0 means absent (R44). -/
def dwellOf (d : Nat) : Option Nat := if d = 0 then none else some d

/-- The new item is made in the lowest free slot and put in a run list by `place`; POOL_FULL when there is none
(R29, R43, R44). The item fields start at byte `off` of the body, at its lane number. -/
def makeItem (s : State) (i : LaneId) (body : List Byte) (off : Nat) (ink : Fin 16) (c : Content)
    (place : Nat → Lane → Lane) : State × Reply :=
  match lowestFree s.pool.items Config.itemSlots with
  | none => refuse s .poolFull
  | some slot =>
    let it : Item :=
      { lane := i, content := c, passes := field body (off + 10) 1, holdDwell := dwellOf (field body (off + 11) 2),
        minWidth := field body (off + 13) 2, ink := ink, cell := none }
    let s := { s with pool := { s.pool with items := tablePut s.pool.items slot it } }
    let s := (s.updLane i (place slot)).addReference c
    (s, okWith (be 2 (s.pool.handle slot)))

/-- The field ranges of an item request (R44, step 3): the ink, when the kind and the minimum cell width are in range too. -/
def itemFieldsOk (body : List Byte) (off : Nat) : Option (Fin 16) :=
  if field body (off + 1) 1 > 2 ∨ field body (off + 13) 2 > 4095 then none else small? 16 (field body (off + 15) 1)

/-- ITEM_APPEND (R44). -/
def itemAppendRule (body : List Byte) (s : State) : State × Reply :=
  withLane body s fun i =>
    if (s.lane i).state = .off then refuse s .busy
    else
      match itemFieldsOk body 0 with
      | none => refuse s .badParam
      | some ink =>
        match contentOf s (field body 1 1) (fieldBytes body 2 8) with
        | .error r => refuse s r
        | .ok c => makeItem s i body 0 ink c fun slot l => { l with queued := l.queued ++ [slot] }

def execItemAppend (tag : Byte) (body : List Byte) (s : State) : Answer := .next (serve 0x20 tag body itemAppendRule s)

/-- A slot put directly after another in a list. -/
def insertAfter (after new : Nat) : List Nat → List Nat
  | [] => []
  | x :: xs => if x = after then x :: new :: xs else x :: insertAfter after new xs

/-- Where a position puts the new item (R45): the front of the queued part for FFFFh and after the last visible item,
directly after a queued item otherwise. -/
def placeAt (s : State) (i : LaneId) (position : Nat) : Except Result (Nat → Lane → Lane) :=
  let front : Nat → Lane → Lane := fun slot l => { l with queued := slot :: l.queued }
  if position = Config.frontPosition then .ok front
  else
    match s.resolve position with
    | none => .error .noItem
    | some (at_, it) =>
      if it.lane ≠ i then .error .badParam
      else if it.isVisible then
        if (s.lane i).visible.getLast? = some at_ then .ok front else .error .visible
      else .ok fun slot l => { l with queued := insertAfter at_ slot l.queued }

/-- ITEM_INSERT (R45): a position handle, then the fields of ITEM_APPEND. -/
def itemInsertRule (body : List Byte) (s : State) : State × Reply :=
  withLane (body.drop 2) s fun i =>
    if (s.lane i).state = .off then refuse s .busy
    else
      match itemFieldsOk body 2 with
      | none => refuse s .badParam
      | some ink =>
        match placeAt s i (field body 0 2) with
        | .error r => refuse s r
        | .ok place =>
          match contentOf s (field body 3 1) (fieldBytes body 4 8) with
          | .error r => refuse s r
          | .ok c => makeItem s i body 2 ink c place

def execItemInsert (tag : Byte) (body : List Byte) (s : State) : Answer := .next (serve 0x21 tag body itemInsertRule s)

/-- A request that names an item by its handle (R30). -/
def withItem (body : List Byte) (s : State) (rule : Nat → Item → State × Reply) : State × Reply :=
  match s.resolve (field body 0 2) with
  | some (slot, it) => rule slot it
  | none => refuse s .noItem

/-- ITEM_REPLACE (R46). -/
def itemReplaceRule (body : List Byte) (s : State) : State × Reply :=
  withItem body s fun slot it =>
    if field body 2 1 > 2 then refuse s .badParam
    else
      match small? 16 (field body 11 1) with
      | none => refuse s .badParam
      | some ink =>
        if it.isVisible then refuse s .visible
        else
          match contentOf s (field body 2 1) (fieldBytes body 3 8) with
          | .error r => refuse s r
          | .ok c =>
            let s := (s.addReference c).dropReference it.content
            accept (s.updItem slot fun it => { it with content := c, ink := ink })

def execItemReplace (tag : Byte) (body : List Byte) (s : State) : Answer :=
  .next (serve 0x22 tag body itemReplaceRule s)

/-- ITEM_REMOVE (R47). -/
def itemRemoveRule (body : List Byte) (s : State) : State × Reply :=
  withItem body s fun slot it =>
    if it.isVisible then (s.updItem slot fun it => { it with passes := 1 }, bare .deferred)
    else accept (s.freeItem slot)

def execItemRemove (tag : Byte) (body : List Byte) (s : State) : Answer := .next (serve 0x23 tag body itemRemoveRule s)

/-- ITEM_PASSES (R48). -/
def itemPassesRule (body : List Byte) (s : State) : State × Reply :=
  withItem body s fun slot _ => accept (s.updItem slot fun it => { it with passes := field body 2 1 })

def execItemPasses (tag : Byte) (body : List Byte) (s : State) : Answer := .next (serve 0x24 tag body itemPassesRule s)

/-- RUN_CLEAR (R49). -/
def runClearRule (body : List Byte) (s : State) : State × Reply :=
  withLane body s fun i =>
    (s.freeItems (s.lane i).queued, okWith (be 2 (s.lane i).queued.length))

def execRunClear (tag : Byte) (body : List Byte) (s : State) : Answer := .next (serve 0x25 tag body runClearRule s)

/-- The kind and content fields of ITEM_QUERY (R50). -/
def contentReport : Content → List Byte
  | .quote code _ => be 1 0 ++ code
  | .text id => be 1 1 ++ be 1 id ++ List.replicate 7 0
  | .mark code => be 1 2 ++ code :: List.replicate 7 0

/-- The cell fields of ITEM_QUERY (R50); 0 when the item is queued. -/
def cellReport (l : Lane) : Option Cell → List Byte
  | some c =>
    beSigned 4 (64 * ((l.setup.x0 : Int) + l.setup.width) - ((l.travel : Int) - c.entry)) ++ be 6 c.entry ++
      be 2 c.width ++ be 1 c.style.code ++ be 1 c.flash ++ be 1 c.flashDir.code ++ boolByte c.forcedStale
  | none => List.replicate 16 0

/-- The reply fields of ITEM_QUERY (R50). -/
def itemReport (s : State) (slot : Nat) (it : Item) : List Byte :=
  let l := s.lane it.lane
  be 2 (s.pool.handle slot) ++ be 1 it.lane.val ++ contentReport it.content ++ be 1 it.passes ++
    be 2 (it.holdDwell.getD 0) ++ be 2 it.minWidth ++ be 1 it.ink.val ++ boolByte it.isVisible ++
    be 2 ((l.visible ++ l.queued).idxOf slot) ++ cellReport l it.cell

def itemQueryRule (body : List Byte) (s : State) : State × Reply :=
  withItem body s fun slot it => (s, okWith (itemReport s slot it))

def execItemQuery (tag : Byte) (body : List Byte) (s : State) : Answer := .next (serve 0x26 tag body itemQueryRule s)

/-- The reply fields of RUN_LIST (R51): the handles from a start index, up to 60 of them. -/
def runReport (s : State) (i : LaneId) (start : Nat) : List Byte :=
  let l := s.lane i
  let all := l.visible ++ l.queued
  let part := (all.drop start).take 60
  be 1 l.visible.length ++ be 2 all.length ++ be 1 part.length ++ part.flatMap fun slot => be 2 (s.pool.handle slot)

def runListRule (body : List Byte) (s : State) : State × Reply :=
  withLane body s fun i => (s, okWith (runReport s i (field body 1 2)))

def execRunList (tag : Byte) (body : List Byte) (s : State) : Answer := .next (serve 0x27 tag body runListRule s)

end Sys2Proof.Machine
end

