-- ==== Sys2Proof/Machine/LinkCommands.lean ====
section
/-! DEFINITION. Identification, soft reset, unknown kinds and the events of the control link (R167 to R172, R176, R177). -/
namespace Sys2Proof.Machine

/-! ### IDENT (R176) -/

/-- The 14 bytes of identification (R176). -/
def identification : List Byte :=
  [0x49, 0x4A] ++ be 2 0x0606 ++ be 1 1 ++ be 1 6 ++ be 2 Config.itemSlots ++ be 2 Config.symbolSlots ++
    be 2 Config.textBlocks ++ be 2 Config.granules

def identRule (_body : List Byte) (s : State) : State × Reply := (s, okWith identification)

def execIdent (tag : Byte) (body : List Byte) (s : State) : Answer := .next (serve 0x01 tag body identRule s)

/-! ### DEVICE_RESET (R28, R52, R68, R92, R114, R120, R128, R137, R154, R164, R177, R178) -/

/-- A lane after the soft reset (R28): OFF stays OFF, every other state becomes IDLE; the run list is empty. -/
def Lane.softReset (l : Lane) : Lane :=
  { l.resetMotion with state := if l.state = .off then .off else .idle, visible := [], queued := [] }

/-- The pool after the soft reset (R52): every allocated slot is freed, its generation raised by 1. -/
def Pool.softReset (p : Pool) : Pool :=
  (p.items.map Prod.fst).foldl Pool.bump { p with items := [] }

/-- The clock after the soft reset (R137). -/
def FrameClock.softReset (c : FrameClock) : FrameClock :=
  { c with
    lock := match c.source with | .free => .free | .reference => .seek
    consistent := 0, previousPulse := none, counter := 0, origin := c.now }

/-- The soft reset acts on every block at one moment (R177). -/
def State.softReset (s : State) : State :=
  { s with
    link := { s.link with inbound := [] }
    clock := s.clock.softReset
    lanes := s.lanes.map Lane.softReset
    pool := s.pool.softReset
    symbols := []
    formatter := { s.formatter with queue := [], inFlight := none }
    texts := s.texts.map fun (k, t) => (k, { t with refCount := 0, viewCount := 0 })
    compositor := { s.compositor with state := .idle, inFlight := none }
    events := { s.events with groups := s.events.groups.map fun g => { g with pending := 0 } } }

def deviceResetRule (_body : List Byte) (s : State) : State × Reply := accept s.softReset

/-- DEVICE_RESET (R177). -/
def execDeviceReset (elapsed : Nat) (tag : Byte) (body : List Byte) (s : State) : Answer :=
  .next (serve 0x02 tag body deviceResetRule (s.elapse elapsed))

/-! ### UNKNOWN_KIND and DECODER_TAKE (R172) -/

/-- UNKNOWN_KIND (R172, check 1): a request in hand whose kind is not in the table is answered UNKNOWN_KIND and changes
nothing else. -/
def execUnknownKind (kind tag : Byte) (body : List Byte) (s : State) : Answer :=
  .next (match bodyLengths kind, s.inHand { kind := kind, tag := tag, body := body } with
    | none, some s' => s'.reply { kind := kind, tag := tag, body := body } (bare .unknownKind)
    | _, _ => s)

/-- DECODER_TAKE (R172). -/
def execDecoderTake (s : State) : Answer := .next { s with link := s.link.take }

/-! ### The receiver and the transmitter (R167 to R171) -/

/-- RECEIVE_BYTE (R167): a byte arrives; an inter-byte timer that ran out before it ends the frame first (R169). A
character that arrives while RESET is asserted is lost (R165). -/
def execReceiveByte (elapsed : Nat) (byte : Byte) (s : State) : Answer :=
  let s := s.elapse elapsed
  .next (if s.inReset then s else (if s.timerOverdue then s.dropFrame else s).byteArrives byte)

/-- BYTE_ERROR (R169): the partial frame, if any, is discarded and BAD_FRAME raised; nothing is received while RESET is
asserted (R165). -/
def execByteError (elapsed : Nat) (s : State) : Answer :=
  let s := s.elapse elapsed
  .next (if s.inReset then s else s.dropFrame)

/-- INTER_BYTE_TIMEOUT (R169): the inter-byte timer runs out; nothing happens while hunting. -/
def execInterByteTimeout (s : State) : Answer :=
  .next (match s.link.timerDue with
    | none => s
    | some t => { s with clock := { s.clock with now := max s.clock.now t } }.dropFrame)

/-- REPLY_SENT (R171). -/
def execReplySent (s : State) : Answer := .next { s with link := s.link.sent }

end Sys2Proof.Machine
end

