-- ==== Sys2Proof/Machine/OutputCommands.lean ====
section
/-! DEFINITION. The Compositor requests (R141, R149, R150) and the completion of a composition (R145). -/
namespace Sys2Proof.Machine

/-- PALETTE_SET (R141). -/
def paletteSetRule (body : List Byte) (s : State) : State × Reply :=
  let y := field body 1 2
  let cb := field body 3 2
  let cr := field body 5 2
  let gain := field body 7 2
  match small? 16 (field body 0 1) with
  | none => refuse s .badParam
  | some k =>
    if y > 1023 ∨ cb > 1023 ∨ cr > 1023 ∨ gain > 1023 then refuse s .badParam
    else accept { s with
      compositor := { s.compositor with palette := s.compositor.palette.set k { y, cb, cr, gain } } }

def execPaletteSet (tag : Byte) (body : List Byte) (s : State) : Answer := .next (serve 0x78 tag body paletteSetRule s)

/-- OUTPUT_SETUP (R150). -/
def outputSetupRule (body : List Byte) (s : State) : State × Reply :=
  match overrunPolicy? (field body 0 1) with
  | none => refuse s .badParam
  | some p => accept { s with compositor := { s.compositor with policy := p } }

def execOutputSetup (tag : Byte) (body : List Byte) (s : State) : Answer := .next (serve 0x79 tag body outputSetupRule s)

/-- A FROZEN lane enters STOPPED on OUTPUT_RESUME (R149). -/
def Lane.thaw (l : Lane) : Lane := if l.state = .frozen then { l with state := .stopped } else l

/-- OUTPUT_RESUME (R149). -/
def outputResumeRule (_body : List Byte) (s : State) : State × Reply :=
  match s.compositor.state with
  | .halted =>
    let s := { s with lanes := s.lanes.map Lane.thaw, compositor := { s.compositor with state := .idle } }
    accept (s.raise .resumed)
  | .idle | .composing => refuse s .noEffect

def execOutputResume (tag : Byte) (body : List Byte) (s : State) : Answer := .next (serve 0x7A tag body outputResumeRule s)

/-- COMPOSITION_COMPLETE (R145): the picture built from the snapshot replaces the output picture; nothing happens when no
composition is in flight. -/
def execCompositionComplete (s : State) : Answer :=
  .next (match s.compositor.state, s.compositor.inFlight with
    | .composing, some sn =>
      { s with compositor := { s.compositor with state := .idle, inFlight := none, output := s.draw sn } }
    | _, _ => s)

end Sys2Proof.Machine
end

