-- ==== Sys2Proof/Machine/StoreCommands.lean ====
section
/-! DEFINITION. The Text Pool and Glyph Store requests (R117 to R119, R124 to R127). -/
namespace Sys2Proof.Machine

/-! ### Text Pool -/

/-- The blocks held by texts (R115). -/
def usedBlocks (t : Table TextRec) : List Nat := t.flatMap fun (_, r) => r.blocks

/-- TEXT_CREATE (R117). -/
def textCreateRule (body : List Byte) (s : State) : State × Reply :=
  let id := field body 0 1
  let length := field body 1 2
  let need := ceilDiv length Config.blockCodes
  if length = 0 ∨ length > Config.maxTextLength then refuse s .badParam
  else if (s.text? id).isSome then refuse s .exists
  else if Config.textBlocks - (usedBlocks s.texts).length < need then refuse s .poolFull
  else
    let r : TextRec :=
      { blocks := takeLowest (usedBlocks s.texts) Config.textBlocks need, codes := List.replicate length 0x20,
        refCount := 0, viewCount := 0 }
    ({ s with texts := tablePut s.texts id r }, okWith (be 1 need))

def execTextCreate (tag : Byte) (body : List Byte) (s : State) : Answer := .next (serve 0x60 tag body textCreateRule s)

/-- Codes written over a run of positions (R118). -/
def overwrite (codes : List Byte) (offset : Nat) (new : List Byte) : List Byte :=
  codes.take offset ++ new ++ codes.drop (offset + new.length)

/-- TEXT_WRITE (R118). -/
def textWriteRule (body : List Byte) (s : State) : State × Reply :=
  let id := field body 0 1
  let offset := field body 1 2
  let new := body.drop 3
  match s.text? id with
  | none => refuse s .noText
  | some t =>
    if offset + new.length > t.codes.length then refuse s .range
    else if s.inView id t then refuse s .inView
    else accept (s.updText id fun t => { t with codes := overwrite t.codes offset new })

def execTextWrite (tag : Byte) (body : List Byte) (s : State) : Answer := .next (serve 0x61 tag body textWriteRule s)

/-- TEXT_FREE (R119). -/
def textFreeRule (body : List Byte) (s : State) : State × Reply :=
  let id := field body 0 1
  match s.text? id with
  | none => refuse s .noText
  | some t =>
    if t.refCount > 0 ∨ s.inView id t then refuse s .inUse
    else accept { s with texts := tableErase s.texts id }

def execTextFree (tag : Byte) (body : List Byte) (s : State) : Answer := .next (serve 0x62 tag body textFreeRule s)

/-! ### Glyph Store -/

/-- The granules held by the glyphs of a face (R122). -/
def Face.heldGranules (f : Face) : List Nat := f.glyphs.flatMap fun (_, g) => g.granules

/-- The granules held by all faces. -/
def heldGranules (fs : Vector Face 4) : List Nat := fs.toList.flatMap Face.heldGranules

def State.setFace (s : State) (k : Fin 4) (f : Face) : State := { s with faces := s.faces.set k f }

/-- FACE_SETUP (R124). -/
def faceSetupRule (body : List Byte) (s : State) : State × Reply :=
  let height := field body 1 1
  let advance := field body 2 1
  match small? 4 (field body 0 1) with
  | none => refuse s .badParam
  | some k =>
    if height < 16 ∨ height > 128 ∨ advance < 1 ∨ advance > 63 then refuse s .badParam
    else if s.faceBusy k then refuse s .faceBusy
    else if allLanes.any fun i =>
        decide ((s.lane i).state ≠ .off) && decide ((s.lane i).setup.face = k) &&
          decide ((s.lane i).setup.bandHeight < height) then refuse s .badParam
    else accept (s.setFace k { height := height, defaultAdvance := advance, glyphs := [] })

def execFaceSetup (tag : Byte) (body : List Byte) (s : State) : Answer := .next (serve 0x63 tag body faceSetupRule s)

/-- Bytes expected of a glyph: two pixels to a byte, rounded up (R121). -/
def expectedBytes (height advance : Nat) : Nat := ceilDiv (height * advance) 2

/-- The reply fields of GLYPH_LOAD (R125): bytes received and bytes expected. -/
def glyphReport (g : Glyph) : List Byte := be 2 g.image.length ++ be 2 g.expected

/-- GLYPH_LOAD at offset 0 (R125): the old glyph of the code goes first, and NO_SPACE leaves the code not loaded. -/
def glyphStart (s : State) (k : Fin 4) (code advance : Nat) (data : List Byte) : State × Reply :=
  let face := s.faces[k]
  let expected := expectedBytes face.height advance
  if advance = 0 ∨ advance > 63 then refuse s .badParam
  else if data.length > expected then refuse s .range
  else
    let face := { face with glyphs := tableErase face.glyphs code }
    let s := s.setFace k face
    let used := heldGranules s.faces
    let need := ceilDiv expected Config.granuleBytes
    if Config.granules - used.length < need then refuse s .noSpace
    else
      let g : Glyph :=
        { advance := advance, expected := expected, granules := takeLowest used Config.granules need, image := data }
      (s.setFace k { face with glyphs := tablePut face.glyphs code g }, okWith (glyphReport g))

/-- GLYPH_LOAD at another offset (R126): the next chunk in order. -/
def glyphContinue (s : State) (k : Fin 4) (code offset : Nat) (data : List Byte) : State × Reply :=
  let face := s.faces[k]
  match tableFind face.glyphs code with
  | none => refuse s .sequence
  | some g =>
    if offset ≠ g.image.length then refuse s .sequence
    else if offset + data.length > g.expected then refuse s .range
    else
      let g := { g with image := g.image ++ data }
      (s.setFace k { face with glyphs := tablePut face.glyphs code g }, okWith (glyphReport g))

/-- GLYPH_LOAD (R125, R126). -/
def glyphLoadRule (body : List Byte) (s : State) : State × Reply :=
  match small? 4 (field body 0 1) with
  | none => refuse s .badParam
  | some k =>
    let code := field body 1 1
    let offset := field body 3 2
    let data := body.drop 5
    if s.faceBusy k then refuse s .faceBusy
    else if offset = 0 then glyphStart s k code (field body 2 1) data
    else glyphContinue s k code offset data

def execGlyphLoad (tag : Byte) (body : List Byte) (s : State) : Answer := .next (serve 0x64 tag body glyphLoadRule s)

/-! ### STORE_QUERY (R127) -/

/-- The reply fields of one face (R127). -/
def faceReport (s : State) (k : Fin 4) : List Byte :=
  let f := s.faces[k]
  be 1 f.height ++ be 1 f.defaultAdvance ++ be 2 f.glyphs.length ++
    be 2 (f.glyphs.countP fun (_, g) => g.complete) ++ be 2 f.heldGranules.length ++ boolByte (s.faceBusy k)

/-- The reply fields of STORE_QUERY (R127). -/
def storeReport (s : State) : List Byte :=
  be 2 (Config.textBlocks - (usedBlocks s.texts).length) ++ be 2 s.texts.length ++
    be 2 (Config.granules - (heldGranules s.faces).length) ++
    faceReport s 0 ++ faceReport s 1 ++ faceReport s 2 ++ faceReport s 3

def storeQueryRule (_body : List Byte) (s : State) : State × Reply := (s, okWith (storeReport s))

def execStoreQuery (tag : Byte) (body : List Byte) (s : State) : Answer := .next (serve 0x65 tag body storeQueryRule s)

end Sys2Proof.Machine
end

