-- ==== Sys2Proof/Machine/SymbolCommands.lean ====
section
/-! DEFINITION. The symbol and class requests (R77 to R89), and SYMBOL_STALE (R86). -/
namespace Sys2Proof.Machine

/-- The symbol code a request carries first: its 8 bytes as they stand (R76). -/
def codeField (body : List Byte) : SymCode := fieldBytes body 0 8

/-- A request that names a symbol; a code not in the map is NO_SYMBOL (R76). -/
def withSymbol (body : List Byte) (s : State) (rule : Nat → SymbolRec → State × Reply) : State × Reply :=
  match findCode s.symbols (codeField body) with
  | some (slot, r) => rule slot r
  | none => refuse s .noSymbol

/-- SYM_DEFINE (R78). -/
def symDefineRule (body : List Byte) (s : State) : State × Reply :=
  let code := codeField body
  let decimals := field body 9 1
  let reference := field body 10 4
  match small? 8 (field body 8 1) with
  | none => refuse s .badParam
  | some cls =>
    if !codeValid code || decide (decimals ≥ 7) || referenceBad reference then refuse s .badParam
    else if (findCode s.symbols code).isSome then refuse s .exists
    else
      match lowestFree s.symbols Config.symbolSlots with
      | none => refuse s .tableFull
      | some slot =>
        let r : SymbolRec :=
          { code := code, cls := cls, decimals := decimals, price := none, previous := none,
            reference := referenceOf reference, lastSeq := none, halted := false, stale := false,
            lastUpdate := s.clock.counter, refCount := 0, viewList := [] }
        ({ s with symbols := tablePut s.symbols slot r }, okWith (be 2 slot))

def execSymDefine (tag : Byte) (body : List Byte) (s : State) : Answer := .next (serve 0x40 tag body symDefineRule s)

/-- A new sequence is ahead of the last one, or there is no last one (R80). -/
def seqAhead (last : Option (BitVec 16)) (new : BitVec 16) : Bool :=
  match last with
  | none => true
  | some l => decide (1 ≤ (new - l).toNat) && decide ((new - l).toNat ≤ 32767)

/-- The record after an accepted price (R81, steps 1 to 5). -/
def SymbolRec.priced (r : SymbolRec) (price : Nat) (seq : BitVec 16) (counter : BitVec 32) : SymbolRec :=
  { r with previous := r.price, price := some price, lastSeq := some seq, lastUpdate := counter, stale := false }

/-- SYM_PRICE (R81). -/
def symPriceRule (body : List Byte) (s : State) : State × Reply :=
  withSymbol body s fun slot r =>
    let seq := BitVec.ofNat 16 (field body 8 2)
    let price := field body 10 4
    if price > Config.maxPrice then refuse s .badParam
    else if r.halted then refuse s .halted
    else if !seqAhead r.lastSeq seq then refuse s .superseded
    else
      let counter := s.clock.counter
      let s := s.updSymbol slot fun r => r.priced price seq counter
      let s := if r.stale then s.raise .fresh else s
      accept (s.offerView slot)

def execSymPrice (tag : Byte) (body : List Byte) (s : State) : Answer := .next (serve 0x41 tag body symPriceRule s)

/-- SYM_REFERENCE (R83). -/
def symReferenceRule (body : List Byte) (s : State) : State × Reply :=
  withSymbol body s fun slot _ =>
    let v := field body 8 4
    if referenceBad v then refuse s .badParam
    else accept ((s.updSymbol slot fun r => { r with reference := referenceOf v }).offerView slot)

def execSymReference (tag : Byte) (body : List Byte) (s : State) : Answer :=
  .next (serve 0x42 tag body symReferenceRule s)

/-- SYM_HALT (R84). -/
def symHaltRule (body : List Byte) (s : State) : State × Reply :=
  withSymbol body s fun slot r =>
    if r.halted then refuse s .noEffect
    else accept ((s.updSymbol slot fun r => { r with halted := true }).offerView slot)

def execSymHalt (tag : Byte) (body : List Byte) (s : State) : Answer := .next (serve 0x43 tag body symHaltRule s)

/-- SYM_RESUME (R85). -/
def symResumeRule (body : List Byte) (s : State) : State × Reply :=
  withSymbol body s fun slot r =>
    if r.halted then
      accept ((s.updSymbol slot fun r => { r with halted := false, lastSeq := none }).offerView slot)
    else refuse s .noEffect

def execSymResume (tag : Byte) (body : List Byte) (s : State) : Answer := .next (serve 0x44 tag body symResumeRule s)

/-- SYM_REMOVE (R79). -/
def symRemoveRule (body : List Byte) (s : State) : State × Reply :=
  withSymbol body s fun slot r =>
    if r.refCount > 0 then refuse s .inUse
    else accept { s with symbols := tableErase s.symbols slot }

def execSymRemove (tag : Byte) (body : List Byte) (s : State) : Answer := .next (serve 0x45 tag body symRemoveRule s)

/-- The reply fields of SYM_QUERY (R89). -/
def symbolReport (slot : Nat) (r : SymbolRec) : List Byte :=
  be 2 slot ++ be 1 r.cls.val ++ be 1 r.decimals ++ priceField r.price ++ priceField r.previous ++
    priceField r.reference ++ boolByte r.lastSeq.isSome ++ be 2 ((r.lastSeq.map BitVec.toNat).getD 0) ++
    boolByte r.halted ++ boolByte r.stale ++ be 4 r.lastUpdate.toNat ++ be 2 r.refCount ++ be 2 r.viewList.length

def symQueryRule (body : List Byte) (s : State) : State × Reply :=
  withSymbol body s fun slot r => (s, okWith (symbolReport slot r))

def execSymQuery (tag : Byte) (body : List Byte) (s : State) : Answer := .next (serve 0x46 tag body symQueryRule s)

/-- A record passes a scan filter: ALL 0, STALE 1, HALTED 2 (R88). -/
def scanPasses (filter : Nat) (r : SymbolRec) : Bool :=
  match filter with
  | 0 => true
  | 1 => r.stale
  | _ => r.halted

/-- The slots and codes a scan collects: the first 20 that pass, in slot order from the start slot (R88). -/
def scanFrom (t : Table SymbolRec) (start filter : Nat) : List (Nat × SymCode) :=
  ((t.filter fun (k, r) => decide (k ≥ start) && scanPasses filter r).take 20).map fun (k, r) => (k, r.code)

/-- The next slot of a scan: the slot after the one that gave the twentieth code, or 1,024 (R88). -/
def scanNext (found : List (Nat × SymCode)) : Nat :=
  if found.length = 20 then (found.getLast?.map fun (k, _) => k + 1).getD Config.symbolSlots else Config.symbolSlots

/-- SYM_SCAN (R88). -/
def symScanRule (body : List Byte) (s : State) : State × Reply :=
  let filter := field body 2 1
  if filter > 2 then refuse s .badParam
  else
    let found := scanFrom s.symbols (field body 0 2) filter
    (s, okWith (be 1 found.length ++ be 2 (scanNext found) ++ found.flatMap Prod.snd))

def execSymScan (tag : Byte) (body : List Byte) (s : State) : Answer := .next (serve 0x47 tag body symScanRule s)

/-- CLASS_SETUP (R77). -/
def classSetupRule (body : List Byte) (s : State) : State × Reply :=
  match small? 8 (field body 0 1) with
  | none => refuse s .badParam
  | some k =>
    accept { s with
      classes := s.classes.set k { staleTimeout := field body 1 2, flashLength := field body 3 1 } }

def execClassSetup (tag : Byte) (body : List Byte) (s : State) : Answer := .next (serve 0x48 tag body classSetupRule s)

/-- SYMBOL_STALE (R86): a symbol whose class timeout has expired at the present frame counter becomes stale. The frame
starts check every symbol themselves; this row is that check of one symbol on its own (notes/assumptions/5). -/
def execSymbolStale (slot : Nat) (s : State) : Answer := .next (s.checkSymbol slot)

end Sys2Proof.Machine
end

