-- ==== Sys2Proof/Machine/Dispatch.lean ====
section
/-! DEFINITION. One arm for each command: its meaning, written in the file of its family. -/
namespace Sys2Proof.Machine

def exec (i : Instr) (s : State) : Host.Outcome State Fault Refusal :=
  match i with
  | .ident tag body => Sys2Proof.Machine.execIdent tag body s
  | .deviceReset elapsed tag body => Sys2Proof.Machine.execDeviceReset elapsed tag body s
  | .eventEnable tag body => Sys2Proof.Machine.execEventEnable tag body s
  | .eventPriority tag body => Sys2Proof.Machine.execEventPriority tag body s
  | .eventSummary tag body => Sys2Proof.Machine.execEventSummary tag body s
  | .eventNext tag body => Sys2Proof.Machine.execEventNext tag body s
  | .eventRead tag body => Sys2Proof.Machine.execEventRead tag body s
  | .attnMask tag body => Sys2Proof.Machine.execAttnMask tag body s
  | .laneSetup tag body => Sys2Proof.Machine.execLaneSetup tag body s
  | .laneOff tag body => Sys2Proof.Machine.execLaneOff tag body s
  | .laneStart tag body => Sys2Proof.Machine.execLaneStart tag body s
  | .laneStop late tag body => Sys2Proof.Machine.execLaneStop late tag body s
  | .laneSpeed tag body => Sys2Proof.Machine.execLaneSpeed tag body s
  | .laneStage tag body => Sys2Proof.Machine.execLaneStage tag body s
  | .laneReset tag body => Sys2Proof.Machine.execLaneReset tag body s
  | .laneQuery tag body => Sys2Proof.Machine.execLaneQuery tag body s
  | .itemAppend tag body => Sys2Proof.Machine.execItemAppend tag body s
  | .itemInsert tag body => Sys2Proof.Machine.execItemInsert tag body s
  | .itemReplace tag body => Sys2Proof.Machine.execItemReplace tag body s
  | .itemRemove tag body => Sys2Proof.Machine.execItemRemove tag body s
  | .itemPasses tag body => Sys2Proof.Machine.execItemPasses tag body s
  | .runClear tag body => Sys2Proof.Machine.execRunClear tag body s
  | .itemQuery tag body => Sys2Proof.Machine.execItemQuery tag body s
  | .runList tag body => Sys2Proof.Machine.execRunList tag body s
  | .holdRelease tag body => Sys2Proof.Machine.execHoldRelease tag body s
  | .cueSet tag body => Sys2Proof.Machine.execCueSet tag body s
  | .cueClear tag body => Sys2Proof.Machine.execCueClear tag body s
  | .cueQuery tag body => Sys2Proof.Machine.execCueQuery tag body s
  | .symDefine tag body => Sys2Proof.Machine.execSymDefine tag body s
  | .symPrice tag body => Sys2Proof.Machine.execSymPrice tag body s
  | .symReference tag body => Sys2Proof.Machine.execSymReference tag body s
  | .symHalt tag body => Sys2Proof.Machine.execSymHalt tag body s
  | .symResume tag body => Sys2Proof.Machine.execSymResume tag body s
  | .symRemove tag body => Sys2Proof.Machine.execSymRemove tag body s
  | .symQuery tag body => Sys2Proof.Machine.execSymQuery tag body s
  | .symScan tag body => Sys2Proof.Machine.execSymScan tag body s
  | .classSetup tag body => Sys2Proof.Machine.execClassSetup tag body s
  | .templateSet tag body => Sys2Proof.Machine.execTemplateSet tag body s
  | .templateQuery tag body => Sys2Proof.Machine.execTemplateQuery tag body s
  | .textCreate tag body => Sys2Proof.Machine.execTextCreate tag body s
  | .textWrite tag body => Sys2Proof.Machine.execTextWrite tag body s
  | .textFree tag body => Sys2Proof.Machine.execTextFree tag body s
  | .faceSetup tag body => Sys2Proof.Machine.execFaceSetup tag body s
  | .glyphLoad tag body => Sys2Proof.Machine.execGlyphLoad tag body s
  | .storeQuery tag body => Sys2Proof.Machine.execStoreQuery tag body s
  | .timingSetup elapsed order tag body => Sys2Proof.Machine.execTimingSetup elapsed order tag body s
  | .timingQuery tag body => Sys2Proof.Machine.execTimingQuery tag body s
  | .gpiSetup tag body => Sys2Proof.Machine.execGpiSetup tag body s
  | .paletteSet tag body => Sys2Proof.Machine.execPaletteSet tag body s
  | .outputSetup tag body => Sys2Proof.Machine.execOutputSetup tag body s
  | .outputResume tag body => Sys2Proof.Machine.execOutputResume tag body s
  | .unknownKind kind tag body => Sys2Proof.Machine.execUnknownKind kind tag body s
  | .decoderTake => Sys2Proof.Machine.execDecoderTake s
  | .receiveByte elapsed byte => Sys2Proof.Machine.execReceiveByte elapsed byte s
  | .byteError elapsed => Sys2Proof.Machine.execByteError elapsed s
  | .interByteTimeout => Sys2Proof.Machine.execInterByteTimeout s
  | .replySent => Sys2Proof.Machine.execReplySent s
  | .powerOnReset edge => Sys2Proof.Machine.execPowerOnReset edge s
  | .framePeriodExpiry order => Sys2Proof.Machine.execFramePeriodExpiry order s
  | .windowExpiry order => Sys2Proof.Machine.execWindowExpiry order s
  | .referencePulse elapsed order => Sys2Proof.Machine.execReferencePulse elapsed order s
  | .armedStart lane => Sys2Proof.Machine.execArmedStart lane s
  | .holdDwellExpiry lane => Sys2Proof.Machine.execHoldDwellExpiry lane s
  | .symbolStale slot => Sys2Proof.Machine.execSymbolStale slot s
  | .compositionComplete => Sys2Proof.Machine.execCompositionComplete s
  | .refreshTake => Sys2Proof.Machine.execRefreshTake s
  | .refreshComplete => Sys2Proof.Machine.execRefreshComplete s
  | .gpiLevelChange elapsed input => Sys2Proof.Machine.execGpiLevelChange elapsed input s
  | .gpiDebounceExpiry input late => Sys2Proof.Machine.execGpiDebounceExpiry input late s

end Sys2Proof.Machine
end

