-- ==== Sys2Proof/Safety.lean ====
section
/-! DEFINITION. The terms in which claims about the machine are stated: a request in hand and its answer, a link at rest,
the ranges and agreements that every block keeps, and what a frame start leaves alone. A safe run is one whose steps all
answer a next state that keeps these. -/
namespace Sys2Proof.Machine

/-! ### Requests and answers -/

/-- The Decoder holds the request of this kind, tag and body (R172). -/
def State.holds (s : State) (kind tag : Byte) (body : List Byte) : Prop :=
  s.link.decoder = some { kind := kind, tag := tag, body := body }

/-- The state once the request in hand is answered with a result code and data: the Decoder is free, and the reply, of the
request's kind plus 80h and its tag, stands at the tail of the outbound queue (R172, R173). -/
def State.answered (s : State) (kind tag result : Byte) (data : List Byte) : State :=
  { s with
    link := { s.link with
      decoder := none
      outbound := s.link.outbound ++ [{ kind := kind + 0x80, tag := tag, body := result :: data }]
      sending := true } }

/-- The state with another link. -/
def State.withLink (s : State) (k : Link) : State := { s with link := k }

/-- The state with another Event Unit. -/
def State.withEvents (s : State) (u : EventUnit) : State := { s with events := u }

/-- The Decoder is free, nothing waits for it, the receiver hunts and a slot is free. -/
def Link.rests (k : Link) : Prop :=
  k.decoder = none ∧ k.inbound = [] ∧ k.receiver = .hunting ∧ k.outbound.length < 8

/-- RESET is released and the link at rest: a request that comes now is taken at once. -/
def State.rests (s : State) : Prop := s.inReset = false ∧ s.link.rests

/-- While RESET is asserted every block stands at its power-on values: only time passes, and the GPI inputs are followed
(R129, R138, R165, R178). -/
def State.HeldInReset (s : State) : Prop :=
  s.inReset = true → s = { State.powerOn true s.clock.origin (s.gpi.map Gpi.level) s.pending with
    clock := { FrameClock.powerOn s.clock.origin with now := s.clock.now } }

/-- The ticks a command says have passed before it (notes/assumptions/3). -/
def passedBefore : Instr → Nat
  | .deviceReset e _ _ => e
  | .timingSetup e _ _ _ => e
  | .receiveByte e _ => e
  | .byteError e => e
  | .referencePulse e _ => e
  | .gpiLevelChange e _ => e
  | .powerOnReset edge => edge.elapsed
  | _ => 0

/-! ### The link and the Event Unit -/

/-- The queues within their sizes, the transmitter sending exactly while a reply waits, the frame buffer short of a
complete frame (R166, R167, R170, R171). -/
structure Link.Sound (k : Link) : Prop where
  inbound : k.inbound.length ≤ 4
  slots : k.outbound.length + (if k.decoder.isSome then 1 else 0) ≤ 8
  sending : k.sending = !k.outbound.isEmpty
  buffer : ∀ held t, k.receiver = .inFrame held t → held = [] ∨
    ∃ len rest, held = len :: rest ∧ 2 ≤ len.toNat ∧ len.toNat ≤ 250 ∧ held.length < len.toNat + 2

/-- A group enables event factors only, and only error factors and enabled event factors are pending (R155 to R157). -/
def EventUnit.Sound (u : EventUnit) : Prop :=
  ∀ g : GroupId, u.groups[g].enable &&& ~~~ (eventPlaces g) = 0 ∧
    u.groups[g].pending &&& ~~~ (errorPlaces g ||| u.groups[g].enable) = 0

/-! ### Lanes -/

/-- The set-up fields in their ranges (R1). -/
structure LaneSetup.Sound (p : LaneSetup) : Prop where
  height : 16 ≤ p.bandHeight ∧ p.bandHeight ≤ 128
  band : p.bandTop + p.bandHeight ≤ 1080
  width : 64 ≤ p.width ∧ p.x0 + p.width ≤ 1920
  hold : p.holdPos ≤ p.width - 64
  gap : p.gap ≤ 255

/-- The motion record of a lane in its ranges, and its parts in agreement (R2 to R4, R34): V is 0 outside RUN and BRAKE,
a brake kind is present in BRAKE alone, an arm condition in ARMED alone, a dwell in HELD alone; the targets stand in
ascending order, ahead of the travel; at most 64 items are visible. -/
structure Lane.Sound (l : Lane) : Prop where
  setup : l.setup.Sound
  travel : l.travel ≤ Config.maxTravel
  nextEntry : l.nextEntry ≤ Config.maxTravel
  velocity : l.velocity ≤ 4095
  cruise : l.cruise ≤ 4095
  accel : 1 ≤ l.accel ∧ l.accel ≤ 1023
  staged : ∀ p, l.staged = some p → p.cruise ≤ 4095 ∧ 1 ≤ p.accel ∧ p.accel ≤ 1023
  rest : l.state ≠ .run → l.state ≠ .brake → l.velocity = 0
  brake : l.brake ≠ none ↔ l.state = .brake
  arm : l.arm ≠ none ↔ l.state = .armed
  dwell : l.state ≠ .held → l.dwell = 0
  ahead : ∀ t ∈ l.targets, l.travel < t.travel ∧ t.travel ≤ Config.maxTravel
  order : (l.targets.map Target.travel).Pairwise (· ≤ ·)
  visible : l.visible.length ≤ 64

/-- Stationary with nothing on screen: OFF, IDLE, or ARMED from IDLE (R4). -/
def Lane.isBare (l : Lane) : Bool :=
  match l.state with
  | .off | .idle => true
  | .armed => l.arm.any fun a => decide (a.returns = .idle)
  | .run | .brake | .held | .stopped | .frozen => false

/-- The run lists and the pool agree (R4, R29, R32, R34): no run list names an item twice, an allocated item stands in its
own lane's run list and nowhere else, it is VISIBLE exactly in the visible prefix, and a lane with nothing on screen has no
visible item, an OFF lane none at all. -/
structure State.ListsAgree (s : State) : Prop where
  rising : tableRising s.pool.items = true
  slots : ∀ slot it, s.item? slot = some it → slot < Config.itemSlots
  once : ∀ i, ((s.lane i).visible ++ (s.lane i).queued).Nodup
  visible : ∀ i, ∀ slot ∈ (s.lane i).visible, ∃ it, s.item? slot = some it ∧ it.lane = i ∧ it.cell.isSome = true
  queued : ∀ i, ∀ slot ∈ (s.lane i).queued, ∃ it, s.item? slot = some it ∧ it.lane = i ∧ it.cell = none
  listed : ∀ slot it, s.item? slot = some it → slot ∈ (s.lane it.lane).visible ++ (s.lane it.lane).queued
  bare : ∀ i, (s.lane i).isBare = true → (s.lane i).visible = []
  off : ∀ i, (s.lane i).state = .off → (s.lane i).queued = []

/-- t is s with the reference count of the symbol or text that a content names changed, and nothing else; a MARK names none
(R43). -/
def CountChanged (s t : State) (c : Content) (change : Nat → Nat) : Prop :=
  t = { s with symbols := t.symbols, texts := t.texts } ∧
    (∀ k, t.symbol? k = (s.symbol? k).map fun r =>
      match c with
      | .quote _ link => if k = link then { r with refCount := change r.refCount } else r
      | _ => r) ∧
    ∀ id, t.text? id = (s.text? id).map fun r => if c = .text id then { r with refCount := change r.refCount } else r

/-- The generations of the pool (R29): in rising order of slot, none above 31, and none listed at 0. -/
def GenerationsSound (t : Table Nat) : Prop := tableRising t = true ∧ ∀ p ∈ t, 1 ≤ p.2 ∧ p.2 ≤ 31

/-- A slot of the pool holds a visible QUOTE of the symbol in a slot of the table. -/
def State.ShowsQuote (s : State) (slot link : Nat) : Prop :=
  ∃ it code, s.item? slot = some it ∧ it.content = .quote code link ∧ it.cell.isSome = true

/-- Items, symbols, texts and refreshes agree: every QUOTE and TEXT names a symbol or text that is there, and a cell renders
what its item shows (R32, R33); each symbol and text counts the items that name it (R43) and each text those in view (R116);
a view list is the visible QUOTEs of its symbol, each once (R90); and the refresh queue, and a formatting in flight that is
not discarded, are of visible QUOTEs (R107 to R109). -/
structure State.ReferencesAgree (s : State) : Prop where
  symbols : tableRising s.symbols = true
  texts : tableRising s.texts = true
  quotes : ∀ slot it code link, s.item? slot = some it → it.content = .quote code link →
    ∃ r, s.symbol? link = some r ∧ r.code = code
  captions : ∀ slot it id, s.item? slot = some it → it.content = .text id → (s.text? id).isSome = true
  cells : ∀ slot it c, s.item? slot = some it → it.cell = some c →
    match it.content with
    | .quote _ _ => ∃ fields, c.rendering = .quote fields
    | .text id => c.rendering = .text id
    | .mark code => c.rendering = .mark code
  symbolCount : ∀ link r, s.symbol? link = some r →
    r.refCount = s.pool.items.countP fun (_, it) => match it.content with | .quote _ k => decide (k = link) | _ => false
  textCount : ∀ id r, s.text? id = some r →
    r.refCount = s.pool.items.countP fun (_, it) => decide (it.content = .text id)
  inView : ∀ id r, s.text? id = some r →
    r.viewCount = s.pool.items.countP fun (_, it) => decide (it.content = .text id) && it.cell.isSome
  views : ∀ link r, s.symbol? link = some r → r.viewList.Nodup ∧ ∀ slot, slot ∈ r.viewList ↔ s.ShowsQuote slot link
  once : s.formatter.queue.Nodup
  queue : ∀ slot ∈ s.formatter.queue, ∃ link, s.ShowsQuote slot link
  inFlight : ∀ f, s.formatter.inFlight = some f → f.discarded = false → ∃ link, s.ShowsQuote f.item link

/-! ### The Frame Clock -/

/-- The lock state agrees with the source, the fields lie in their ranges, and the origin and the previous pulse lie in the
past (R129, R132). -/
structure FrameClock.Sound (c : FrameClock) : Prop where
  free : c.lock = .free ↔ c.source = .free
  period : 270000 ≤ c.period ∧ c.period ≤ 2700000
  relock : 1 ≤ c.relock ∧ c.relock ≤ 255
  count : c.consistent ≤ 255
  counting : c.lock ≠ .locked → c.consistent ≤ 254
  origin : c.origin ≤ c.now
  previous : ∀ p, c.previousPulse = some p → p ≤ c.now

/-! ### Formatter, stores and Compositor -/

/-- The refresh queue holds at most 64 items, none twice (R107). -/
def Formatter.Sound (f : Formatter) : Prop := f.queue.length ≤ 64 ∧ f.queue.Nodup

/-- The Text Pool (R115): each text holds the blocks its length needs, and no block is held twice. -/
structure TextsSound (t : Table TextRec) : Prop where
  rising : tableRising t = true
  length : ∀ id r, tableFind t id = some r → 1 ≤ r.codes.length ∧ r.codes.length ≤ 1024 ∧
    r.blocks.length = ceilDiv r.codes.length 32
  blocks : ∀ b ∈ usedBlocks t, b < 256
  once : (usedBlocks t).Nodup

/-- The Glyph Store (R121, R122): heights, advances and glyphs in their ranges, each glyph with the granules its image
needs, and no granule held twice. -/
structure FacesSound (fs : Vector Face 4) : Prop where
  rising : ∀ k : Fin 4, tableRising fs[k].glyphs = true
  height : ∀ k : Fin 4, 16 ≤ fs[k].height ∧ fs[k].height ≤ 128
  advance : ∀ k : Fin 4, 1 ≤ fs[k].defaultAdvance ∧ fs[k].defaultAdvance ≤ 63
  glyph : ∀ (k : Fin 4) code g, tableFind fs[k].glyphs code = some g →
    1 ≤ g.advance ∧ g.advance ≤ 63 ∧ g.expected = ceilDiv (fs[k].height * g.advance) 2 ∧
      g.image.length ≤ g.expected ∧ g.granules.length = ceilDiv g.expected 64
  granules : ∀ b ∈ heldGranules fs, b < 8192
  once : (heldGranules fs).Nodup

/-- The composition in flight is present exactly while the state is COMPOSING (R142), and the palette's components lie in
0..1,023 (R141). -/
structure Compositor.Sound (c : Compositor) : Prop where
  inFlight : c.inFlight.isSome = true ↔ c.state = .composing
  palette : ∀ k : Fin 16, c.palette[k].y ≤ 1023 ∧ c.palette[k].cb ≤ 1023 ∧ c.palette[k].cr ≤ 1023 ∧
    c.palette[k].gain ≤ 1023

/-! ### The whole machine -/

/-- Every block keeps its ranges and agreements. -/
structure State.Sound (s : State) : Prop where
  link : s.link.Sound
  events : s.events.Sound
  lanes : ∀ i, (s.lane i).Sound
  clock : s.clock.Sound
  formatter : s.formatter.Sound
  texts : TextsSound s.texts
  faces : FacesSound s.faces
  compositor : s.compositor.Sound
  lists : s.ListsAgree
  generations : GenerationsSound s.pool.generations
  references : s.ReferencesAgree
  reset : s.HeldInReset

/-- A safe step: it answers a next state, and that state is sound. -/
def State.stepsSafely (s : State) : Prop := ∃ t, step s = .next t ∧ t.Sound

/-- What a frame start leaves alone whatever happens in it: the RESET input, the link, the GPI inputs, class records, templates, faces, text
codes, prices, palette, policy and output picture, the waiting commands, and of each lane its set-up, and its Vc and A unless
a staged record was there to load; and no lane's travel decreases (R6, R60, R130). -/
structure FrameKeeps (s t : State) : Prop where
  inReset : t.inReset = s.inReset
  link : t.link = s.link
  gpi : t.gpi = s.gpi
  classes : t.classes = s.classes
  templates : t.formatter.templates = s.formatter.templates
  faces : t.faces = s.faces
  texts : t.texts.map (fun (k, r) => (k, r.blocks, r.codes)) = s.texts.map (fun (k, r) => (k, r.blocks, r.codes))
  symbols : t.symbols.map (fun (k, r) => (k, r.code, r.price, r.reference, r.lastUpdate)) =
    s.symbols.map (fun (k, r) => (k, r.code, r.price, r.reference, r.lastUpdate))
  palette : t.compositor.palette = s.compositor.palette
  policy : t.compositor.policy = s.compositor.policy
  output : t.compositor.output = s.compositor.output
  setup : ∀ i, (t.lane i).setup = (s.lane i).setup
  speed : ∀ i, (s.lane i).staged = none → (t.lane i).staged = none ∧ (t.lane i).cruise = (s.lane i).cruise ∧
    (t.lane i).accel = (s.lane i).accel
  travel : ∀ i, min (s.lane i).travel Config.maxTravel ≤ (t.lane i).travel
  enables : ∀ g : GroupId, t.events.groups[g].enable = s.events.groups[g].enable ∧
    t.events.groups[g].level = s.events.groups[g].level
  mask : t.events.mask = s.events.mask
  pending : t.pending = s.pending

end Sys2Proof.Machine
end

