-- ==== Sys2Proof/Certificates/Slice0/Obligations.lean ====
section
/-! DEFINITION. The statements for the provers. Each docstring names the rule or section it formalises; a statement about a
choice of the model says so and names the entry of notes/assumptions. -/
open Sys2Proof Sys2Proof.Machine

/-! ### The queue of commands -/

/-- A step takes the command at the front of the queue and runs it on the state with the rest; a step on an empty queue
idles (the model's choice, notes/assumptions/6). -/
def Obligations.StepRunsTheFrontCommand : Prop :=
  (∀ (c : Instr) (s : State), step { s with pending := c :: s.pending } = exec c s) ∧
    ∀ s : State, s.pending = [] → step s = .next s

/-- Every command answers a next state, and leaves the commands that wait as they are. That commands wait in a queue of the
state is the model's choice (notes/assumptions/6), and so is that POWER_ON_RESET keeps those that wait
(notes/assumptions/2). -/
def Obligations.CommandsAnswerAndKeepTheQueue : Prop :=
  ∀ (c : Instr) (s : State), ∃ t, exec c s = .next t ∧ t.pending = s.pending

/-! ### The Request Decoder -/

/-- A request command that finds RESET released and the link at rest acts as the request in hand does; one that is neither in
hand nor finds them so changes nothing, the ticks that passed apart (the model's reading, notes/assumptions/1). -/
def Obligations.RequestsActWhenInHandOrAtRest : Prop :=
  ∀ (c : Instr) (k t : Byte) (b : List Byte) (s : State), requestFrame c = some (k, t, b) →
    (∀ k' t' b', c = .unknownKind k' t' b' → bodyLengths k' = none) →
      (s.rests → exec c s =
        exec c (s.withLink { s.link with decoder := some { kind := k, tag := t, body := b } })) ∧
      (¬ s.holds k t b → ¬ s.rests → exec c s = .next (s.elapse (passedBefore c)))

/-- R172, checks 1 and 2: a request in hand whose kind the table does not list is answered UNKNOWN_KIND (10h), one of a
listed kind whose body has another length BAD_LENGTH (11h), and nothing else changes; every kind from 80h is unlisted. -/
def Obligations.UnknownKindsAndBadLengthsAreRefused : Prop :=
  (∀ (k t : Byte) (b : List Byte) (s : State), bodyLengths k = none → s.holds k t b →
      exec (.unknownKind k t b) s = .next (s.answered k t 0x10 [])) ∧
    (∀ (c : Instr) (k t : Byte) (b : List Byte) (s : State), requestFrame c = some (k, t, b) →
      c ≠ .unknownKind k t b → bodyLengths k ≠ none → lengthFits k b.length = false → s.holds k t b →
        exec c s = .next ((s.elapse (passedBefore c)).answered k t 0x11 [])) ∧
    ∀ k : Byte, 0x80 ≤ k.toNat → bodyLengths k = none

/-- DECODER_TAKE (R172): a free Decoder takes the head inbound frame when an outbound slot is free. REPLY_SENT (R171): the
slot of the reply being sent becomes free, and the transmitter goes on with the next reply, if any. That a take changes
nothing while the Decoder holds a request, while no frame waits or while no slot is free, and that REPLY_SENT changes nothing
while the transmitter is idle, is the model's reading of events that cannot come then (notes/assumptions/8). -/
def Obligations.LinkQueuesAreServedInOrder : Prop :=
  ∀ s : State,
    (∀ f rest, s.link.decoder = none → s.link.inbound = f :: rest → s.link.outbound.length < 8 →
      exec .decoderTake s = .next (s.withLink { s.link with inbound := rest, decoder := some f })) ∧
    (s.link.decoder ≠ none ∨ s.link.inbound = [] ∨ 8 ≤ s.link.outbound.length → exec .decoderTake s = .next s) ∧
    (∀ f rest, s.link.sending = true → s.link.outbound = f :: rest →
      exec .replySent s = .next (s.withLink { s.link with outbound := rest, sending := !rest.isEmpty })) ∧
    (s.link.sending = false → exec .replySent s = .next s)

/-! ### The receiver -/

/-- The wire bytes of a frame are those of R166 (marker, length, kind, tag, body, check; their sum without the marker a
multiple of 256), and, received one after another, RESET released, by a hunting receiver with room in the inbound queue, they
put exactly that frame at the tail of the inbound queue and change nothing else (R166, R167, R170). -/
def Obligations.WireBytesReachTheInboundQueue : Prop :=
  ∀ f : Frame, f.body.length ≤ 248 →
    (∃ check : Byte, f.wire =
        [0xC3#8, BitVec.ofNat 8 (f.body.length + 2), f.kind, f.tag] ++ f.body ++ [check] ∧
      ((f.wire.drop 1).map BitVec.toNat).sum % 256 = 0) ∧
    ∀ s : State, s.inReset = false → s.link.receiver = .hunting → s.link.inbound.length < 4 →
      Host.Core.run Sys2Proof.core f.wire.length { s with pending := f.wire.map (Instr.receiveByte 0) ++ s.pending } =
        .next (s.withLink { s.link with inbound := s.link.inbound ++ [f] })

/-- RECEIVE_BYTE (R165, R167, R168, R170): while RESET is asserted the byte is lost. Otherwise hunting discards every byte but
C3h, which opens a frame; a byte within a frame joins the buffer and restarts the timer; a length byte outside 2..250 is
refused with BAD_FRAME; the byte that completes a good frame puts it in the inbound queue when that has room, and otherwise
raises QUEUE_FULL and places a QUEUE_FULL reply (24h) when a slot is neither occupied nor reserved. -/
def Obligations.ReceiverHuntsAndCollects : Prop :=
  ∀ (e : Nat) (x : Byte) (s : State),
    (s.inReset = true → exec (.receiveByte e x) s = .next (s.elapse e)) ∧
    (s.link.receiver = .hunting → x ≠ 0xC3 → exec (.receiveByte e x) s = .next (s.elapse e)) ∧
    (s.inReset = false → s.link.receiver = .hunting → exec (.receiveByte e 0xC3) s =
      .next ((s.elapse e).withLink { s.link with receiver := .inFrame [] (s.clock.now + e) })) ∧
    ∀ held t, s.inReset = false → s.link.receiver = .inFrame held t → s.clock.now + e ≤ t + 135000 →
      (∀ len rest, held ++ [x] = len :: rest → 2 ≤ len.toNat → len.toNat ≤ 250 → (held ++ [x]).length < len.toNat + 2 →
        exec (.receiveByte e x) s =
          .next ((s.elapse e).withLink { s.link with receiver := .inFrame (held ++ [x]) (s.clock.now + e) })) ∧
      (held = [] → (x.toNat < 2 ∨ 250 < x.toNat) → exec (.receiveByte e x) s =
        .next (((s.elapse e).withLink { s.link with receiver := .hunting }).raise .badFrame)) ∧
      ∀ len kind tag body check, held ++ [x] = len :: kind :: tag :: (body ++ [check]) → len.toNat ≤ 250 →
        body.length + 2 = len.toNat → (((held ++ [x]).map BitVec.toNat).sum % 256 = 0) →
          (s.link.inbound.length < 4 → exec (.receiveByte e x) s =
            .next ((s.elapse e).withLink { s.link with
              receiver := .hunting, inbound := s.link.inbound ++ [{ kind := kind, tag := tag, body := body }] })) ∧
          (4 ≤ s.link.inbound.length → ∃ u, exec (.receiveByte e x) s =
              .next (((s.elapse e).withLink u).raise .queueFull) ∧
            ((s.link.outbound.length + (if s.link.decoder.isSome then 1 else 0) < 8 ∧
                u = { s.link with
                  receiver := .hunting, sending := true
                  outbound := s.link.outbound ++ [{ kind := kind + 0x80, tag := tag, body := [0x24] }] }) ∨
              (8 ≤ s.link.outbound.length + (if s.link.decoder.isSome then 1 else 0) ∧
                u = { s.link with receiver := .hunting })))

/-- A complete frame with a bad check is refused, raising BAD_FRAME, and its held bytes are examined again, from the length
byte on, as though they were arriving anew (R168). BYTE_ERROR and INTER_BYTE_TIMEOUT (R169): in frame the partial frame is
discarded and BAD_FRAME raised; a byte error while hunting, or while RESET is asserted (R165), changes nothing. That
INTER_BYTE_TIMEOUT changes nothing while hunting is the model's reading of an event that cannot come then
(notes/assumptions/8). That a byte after the inter-byte limit finds the frame already discarded, and that a timeout which is
overdue acts at the present tick, is its choice (notes/assumptions/3). -/
def Obligations.RefusedFramesAreExaminedAgainOrDropped : Prop :=
  ∀ (e : Nat) (s : State),
    (s.link.receiver = .hunting → exec (.byteError e) s = .next (s.elapse e) ∧ exec .interByteTimeout s = .next s) ∧
    (s.inReset = true → exec (.byteError e) s = .next (s.elapse e)) ∧
    ∀ held t, s.inReset = false → s.link.receiver = .inFrame held t →
      (∀ x len rest, s.clock.now + e ≤ t + 135000 → held ++ [x] = len :: rest → 2 ≤ len.toNat → len.toNat ≤ 250 →
        (held ++ [x]).length = len.toNat + 2 → ((held ++ [x]).map BitVec.toNat).sum % 256 ≠ 0 →
          exec (.receiveByte e x) s =
            Host.Core.run Sys2Proof.core (held ++ [x]).length
              { ((s.elapse e).withLink { s.link with receiver := .hunting }).raise .badFrame with
                pending := (held ++ [x]).map (Instr.receiveByte 0) ++ s.pending }) ∧
      exec (.byteError e) s =
        .next (((s.elapse e).withLink { s.link with receiver := .hunting }).raise .badFrame) ∧
      (s.clock.now ≤ t + 135000 → exec .interByteTimeout s =
        .next (((s.elapse (t + 135000 - s.clock.now)).withLink { s.link with receiver := .hunting }).raise .badFrame)) ∧
      (t + 135000 < s.clock.now → exec .interByteTimeout s =
        .next ((s.withLink { s.link with receiver := .hunting }).raise .badFrame)) ∧
      ∀ x, t + 135000 < s.clock.now + e → exec (.receiveByte e x) s =
        exec (.receiveByte 0 x) (((s.elapse e).withLink { s.link with receiver := .hunting }).raise .badFrame)

/-- The link keeps within its sizes: whatever the command, at most 4 frames wait, the occupied and reserved slots number at
most 8, the transmitter sends exactly while a reply waits, and the frame buffer never holds a whole frame (R166, R167, R170,
R171). -/
def Obligations.LinkStaysSound : Prop :=
  ∀ s t : State, s.link.Sound → step s = .next t → t.link.Sound

/-! ### Resets -/

/-- DEVICE_RESET (R177 and the reset rules it names: R28, R52, R68, R92, R114, R120, R128, R137, R154, R164, R178): what
the soft reset leaves in every block. -/
def Obligations.DeviceResetActsOnEveryBlock : Prop :=
  ∀ (e : Nat) (tag : Byte) (s : State), s.holds 0x02 tag [] →
    ∃ t : State, exec (.deviceReset e tag []) s = .next (t.answered 0x02 tag 0x00 []) ∧
      t.link = { s.link with inbound := [] } ∧
      t.clock = { s.clock with
        now := s.clock.now + e, origin := s.clock.now + e, consistent := 0, previousPulse := none, counter := 0
        lock := if s.clock.source = .free then .free else .seek } ∧
      t.inReset = s.inReset ∧ t.gpi = s.gpi ∧
      (∀ i, t.lane i = { s.lane i with
        state := if (s.lane i).state = .off then .off else .idle
        travel := 0, velocity := 0, nextEntry := 0, staged := none, brake := none, clearing := false, dwell := 0
        entries := 0, runFrames := 0, targets := [], arm := none, visible := [], queued := []
        cues := (s.lane i).cues.map fun c => { c with armed := false } }) ∧
      t.pool.items = [] ∧
      (tableRising s.pool.items = true → tableRising s.pool.generations = true → ∀ slot,
        t.pool.generation slot =
          if (s.item? slot).isSome then (s.pool.generation slot + 1) % 32 else s.pool.generation slot) ∧
      t.symbols = [] ∧ t.classes = s.classes ∧
      t.formatter = { s.formatter with queue := [], inFlight := none } ∧
      t.texts = s.texts.map (fun (k, r) => (k, { r with refCount := 0, viewCount := 0 })) ∧
      t.faces = s.faces ∧
      t.compositor = { s.compositor with state := .idle, inFlight := none } ∧
      t.events = { s.events with groups := s.events.groups.map fun g => { g with pending := 0 } } ∧
      t.pending = s.pending

/-- POWER_ON_RESET: at the assertion of RESET and at its release every block takes its power-on values (R1, R2, R55, R77,
R93, R121, R129, R138, R140, R141, R142, R154, R164, R178), the timebase runs on, and the counted level of each input is the
level standing there. While RESET is asserted no other command does anything, whatever it is: characters are lost and nothing
is sent (R165), no frame start is made (R129), and time passes. That the two changes of RESET are one command with a level,
that the commands which wait are kept, and that a level which changes at an input while RESET is asserted is counted at once
and is no edge, is the model's choice (notes/assumptions/2). -/
def Obligations.PowerOnResetGivesThePowerOnValues : Prop :=
  (∀ s : State, s.HeldInReset → s.inReset = true →
    (∀ (e : Nat) (n : GpiId), exec (.gpiLevelChange e n) s = .next { s.elapse e with
      gpi := s.gpi.set n { level := !s.gpi[n].level, counted := !s.gpi[n].level, debounce := none, edge := .none } }) ∧
    ∀ c : Instr, (∀ edge, c ≠ .powerOnReset edge) → (∀ e n, c ≠ .gpiLevelChange e n) →
      exec c s = .next (s.elapse (passedBefore c))) ∧
  ∀ (e : Nat) (asserted : Bool) (s : State), ∃ t, exec (.powerOnReset { elapsed := e, asserted }) s = .next t ∧
    t.inReset = asserted ∧
    t.link = { receiver := .hunting, inbound := [], outbound := [], sending := false, decoder := none } ∧
    t.clock = { now := s.clock.now + e, source := .free, period := 900900, relock := 16, lock := .free, consistent := 0,
                previousPulse := none, origin := s.clock.now + e, counter := 0 } ∧
    (∀ n : GpiId, t.gpi[n] = { level := s.gpi[n].level, counted := s.gpi[n].level, debounce := none, edge := .none }) ∧
    (∀ i, t.lane i =
      { setup := { bandTop := 0, bandHeight := 16, x0 := 0, width := 1920, face := 0, template := 0, gap := 16, holdPos := 0,
                   background := 0, smoothing := true, onEmpty := .runBlank, fault := .blank }
        state := .off, travel := 0, velocity := 0, cruise := 128, accel := 16, staged := none, nextEntry := 0, brake := none
        clearing := false, dwell := 0, entries := 0, runFrames := 0, targets := [], arm := none, visible := [], queued := []
        cues := Vector.replicate 4 { source := .travel, method := .reach, value := 0, action := .none, syncMask := 0,
                                     repeats := false, armed := false } }) ∧
    t.pool = { items := [], generations := [] } ∧ t.symbols = [] ∧
    (∀ k : Fin 8, t.classes[k] = { staleTimeout := 0, flashLength := 0 }) ∧
    t.formatter.queue = [] ∧ t.formatter.inFlight = none ∧
    (∀ k : Fin 8, t.formatter.templates[k] =
      { fields := [.symbol], grouping := false, halt := [0]
        numerals := { digit0 := 0, point := 0, separator := 0, plus := 0, minus := 0, percent := 0, up := 0, down := 0,
                      flat := 0, noValue := 0 }
        colours := { up := 0, down := 0, flat := 0, halted := 0, stale := 0, flashUp := 0, flashDown := 0,
                     noPrice := 0 } }) ∧
    t.texts = [] ∧ (∀ k : Fin 4, t.faces[k] = { height := 16, defaultAdvance := 8, glyphs := [] }) ∧
    t.compositor = { palette := Vector.replicate 16 { y := 0, cb := 0, cr := 0, gain := 0 }, policy := .repeatFrame,
                     state := .idle, inFlight := none, output := [] } ∧
    (∀ g : GroupId, t.events.groups[g].pending = 0 ∧ t.events.groups[g].enable = 0 ∧
      t.events.groups[g].level = if g.val ≤ 1 then 3 else if g.val ≤ 7 then 2 else if g.val = 8 then 1 else 0) ∧
    t.events.mask = false ∧ t.pending = s.pending

/-- The state after reset is sound in every block, RESET is released, its attention line is deasserted, and its output is the
empty picture: fill (0, 512, 512) and key 0 at every pixel (R142, R164). -/
def Obligations.ResetStateIsSound : Prop :=
  State.reset.Sound ∧ State.reset.inReset = false ∧ State.reset.events.attn = false ∧
    ∀ x y, pixelAt State.reset.compositor.output x y = { y := 0, cb := 512, cr := 512, key := 0 }

/-! ### The Event Unit -/

/-- R155 and R156: the group and the place of every factor, and which are error factors; a raised error factor, and a
raised event factor that is enabled, is added to its group's pending set; another event factor leaves no trace; nothing else
of the unit, and nothing else of the machine, changes. -/
def Obligations.RaisedFactorsAreRecorded : Prop :=
  (∀ (s : State) (f : Factor),
    (∃ u, s.raise f = s.withEvents u ∧ u.mask = s.events.mask ∧
      (∀ g : GroupId, g ≠ f.group → u.groups[g] = s.events.groups[g]) ∧
      u.groups[f.group].enable = s.events.groups[f.group].enable ∧
      u.groups[f.group].level = s.events.groups[f.group].level ∧
      ∀ n, n < 16 → u.groups[f.group].pending.getLsbD n =
        (s.events.groups[f.group].pending.getLsbD n ||
          (decide (n = f.place) && ((errorPlaces f.group).getLsbD n ||
            ((eventPlaces f.group).getLsbD n && s.events.groups[f.group].enable.getLsbD n))))) ∧
    ((errorPlaces f.group).getLsbD f.place = !(eventPlaces f.group).getLsbD f.place)) ∧
  (let is := fun (f : Factor) (g p : Nat) (error : Bool) =>
    f.group.val = g ∧ f.place = p ∧ (errorPlaces f.group).getLsbD p = error
  is .frame 0 0 false ∧ is .locked 0 1 false ∧ (∀ n, is (.gpiEdge n) 0 (2 + n.val) false) ∧ is .refLost 0 15 true ∧
    is .resumed 1 0 false ∧ is .overrun 1 15 true ∧
    (∀ l : LaneId, is (.started l) (l.val + 2) 0 false ∧ is (.stopped l) (l.val + 2) 1 false ∧
      is (.drained l) (l.val + 2) 2 false ∧ is (.holdReached l) (l.val + 2) 3 false ∧
      is (.holdReleased l) (l.val + 2) 4 false ∧ (∀ k : CueId, is (.cue l k) (l.val + 2) (5 + k.val) false) ∧
      is (.entry l) (l.val + 2) 9 false ∧ is (.retired l) (l.val + 2) 10 false ∧
      is (.formatFault l) (l.val + 2) 11 false ∧ is (.updateHeld l) (l.val + 2) 12 false ∧
      is (.shortBrake l) (l.val + 2) 13 true ∧ is (.refreshDropped l) (l.val + 2) 14 true ∧
      is (.frozen l) (l.val + 2) 15 true) ∧
    is .stale 8 0 false ∧ is .fresh 8 1 false ∧ is .badFrame 9 0 true ∧ is .queueFull 9 1 true)

/-- R162: ATTN is asserted exactly when at least one factor is pending and the attention mask is clear. -/
def Obligations.AttnFollowsFactorsAndMask : Prop :=
  ∀ s : State, s.events.attn = true ↔ (∃ g : GroupId, s.events.groups[g].pending ≠ 0) ∧ s.events.mask = false

/-- EVENT_ENABLE (R157), EVENT_PRIORITY (R158) and ATTN_MASK (R163). -/
def Obligations.EventUnitIsProgrammed : Prop :=
  ∀ (tag : Byte) (body : List Byte) (s : State),
    (s.holds 0x08 tag body → body.length = 3 →
      (∀ g : GroupId, field body 0 1 = g.val →
        let enable := BitVec.ofNat 16 (field body 1 2) &&& eventPlaces g
        exec (.eventEnable tag body) s =
          .next ((s.withEvents (s.events.setGroup g { s.events.groups[g] with
            enable := enable
            pending := s.events.groups[g].pending &&& (enable ||| errorPlaces g) })).answered 0x08 tag 0x00
              (be 2 enable.toNat))) ∧
      (9 < field body 0 1 → exec (.eventEnable tag body) s = .next (s.answered 0x08 tag 0x12 []))) ∧
    (s.holds 0x09 tag body → body.length = 2 →
      (∀ (g : GroupId) (level : Fin 4), field body 0 1 = g.val → field body 1 1 = level.val →
        exec (.eventPriority tag body) s =
          .next ((s.withEvents (s.events.setGroup g { s.events.groups[g] with level := level })).answered
            0x09 tag 0x00 [])) ∧
      (9 < field body 0 1 ∨ 3 < field body 1 1 →
        exec (.eventPriority tag body) s = .next (s.answered 0x09 tag 0x12 []))) ∧
    (s.holds 0x0D tag body → body.length = 1 →
      (field body 0 1 ≤ 1 → exec (.attnMask tag body) s =
        .next ((s.withEvents { s.events with mask := decide (field body 0 1 = 1) }).answered 0x0D tag 0x00 [])) ∧
      (1 < field body 0 1 → exec (.attnMask tag body) s = .next (s.answered 0x0D tag 0x12 [])))

/-- EVENT_SUMMARY (R159), EVENT_NEXT (R160) and EVENT_READ (R161): what they return, and that exactly that is cleared. -/
def Obligations.EventReadsClearWhatTheyReturn : Prop :=
  ∀ (tag : Byte) (body : List Byte) (s : State),
    let cleared := fun g : GroupId => s.withEvents (s.events.setGroup g { s.events.groups[g] with pending := 0 })
    (s.holds 0x0A tag [] → ∃ w : BitVec 16,
      (∀ g : GroupId, w.getLsbD g.val = decide (s.events.groups[g].pending ≠ 0)) ∧ (∀ n, 10 ≤ n → w.getLsbD n = false) ∧
      exec (.eventSummary tag []) s =
        .next (s.answered 0x0A tag 0x00 (be 2 w.toNat ++ [if s.events.attn then 1 else 0, if s.events.mask then 1 else 0]))) ∧
    (s.holds 0x0B tag [] →
      ((∀ g : GroupId, s.events.groups[g].pending = 0) →
        exec (.eventNext tag []) s = .next (s.answered 0x0B tag 0x00 [0xFF, 0, 0, 0])) ∧
      ∀ g : GroupId, s.events.groups[g].pending ≠ 0 →
        (∀ h : GroupId, s.events.groups[h].pending ≠ 0 → h ≠ g →
          s.events.groups[h].level < s.events.groups[g].level ∨
            (s.events.groups[h].level = s.events.groups[g].level ∧ g < h)) →
        exec (.eventNext tag []) s = .next ((cleared g).answered 0x0B tag 0x00
          (be 1 g.val ++ be 1 s.events.groups[g].level.val ++ be 2 s.events.groups[g].pending.toNat))) ∧
    (s.holds 0x0C tag body → body.length = 1 →
      (∀ g : GroupId, field body 0 1 = g.val → exec (.eventRead tag body) s =
        .next ((cleared g).answered 0x0C tag 0x00 (be 2 s.events.groups[g].pending.toNat))) ∧
      (9 < field body 0 1 → exec (.eventRead tag body) s = .next (s.answered 0x0C tag 0x12 [])))

/-- Whatever the command, groups enable event factors only, and no event factor is pending that its group does not enable
(R155 to R157). -/
def Obligations.PendingSetsHoldRecordedFactorsOnly : Prop :=
  ∀ s t : State, s.events.Sound → step s = .next t → t.events.Sound

/-! ### Lanes: set-up, start, stop, speed, reset -/

/-- R15 and R30: every lane request whose lane number is 6 or more, and every item, run list and cue request that carries
such a lane number first, is answered BAD_PARAM; a handle whose slot is free, or whose generation is not the slot's, is
answered NO_ITEM by every request that names an item first; and nothing changes. -/
def Obligations.WrongLanesAndHandlesAreRefused : Prop :=
  ∀ (c : Instr) (k t : Byte) (b : List Byte) (s : State), requestFrame c = some (k, t, b) → c ≠ .unknownKind k t b →
    s.holds k t b → lengthFits k b.length = true →
    (k ∈ ([0x10, 0x11, 0x12, 0x13, 0x14, 0x15, 0x16, 0x17, 0x20, 0x25, 0x27, 0x30, 0x31, 0x32, 0x33] : List Byte) →
      6 ≤ field b 0 1 → exec c s = .next (s.answered k t 0x12 [])) ∧
    (k ∈ ([0x22, 0x23, 0x24, 0x26] : List Byte) →
      (s.item? (field b 0 2 % 2048) = none ∨ s.pool.generation (field b 0 2 % 2048) ≠ field b 0 2 / 2048) →
      exec c s = .next (s.answered k t 0x14 []))

/-- LANE_SETUP (R16): taken in OFF and IDLE only, BUSY otherwise; checked against R1 and the height of the chosen face;
then all set-up fields take the new values and the lane is IDLE, its motion fields and items kept. -/
def Obligations.LaneSetupIsCheckedAndTaken : Prop :=
  ∀ (tag : Byte) (b : List Byte) (s : State) (i : LaneId), s.holds 0x10 tag b → b.length = 17 → field b 0 1 = i.val →
    ((s.lane i).state ≠ .off → (s.lane i).state ≠ .idle →
      exec (.laneSetup tag b) s = .next (s.answered 0x10 tag 0x13 [])) ∧
    ((s.lane i).state = .off ∨ (s.lane i).state = .idle →
      let good := field b 1 2 ≤ 1079 ∧ 16 ≤ field b 3 1 ∧ field b 3 1 ≤ 128 ∧ field b 1 2 + field b 3 1 ≤ 1080 ∧
        field b 4 2 ≤ 1856 ∧ 64 ≤ field b 6 2 ∧ field b 6 2 ≤ 1920 ∧ field b 4 2 + field b 6 2 ≤ 1920 ∧
        field b 8 1 ≤ 3 ∧ field b 9 1 ≤ 7 ∧ field b 11 2 ≤ field b 6 2 - 64 ∧ field b 13 1 ≤ 15 ∧ field b 14 1 ≤ 1 ∧
        field b 15 1 ≤ 1 ∧ field b 16 1 ≤ 1 ∧ ∀ k : Fin 4, field b 8 1 = k.val → s.faces[k].height ≤ field b 3 1
      (¬ good → exec (.laneSetup tag b) s = .next (s.answered 0x10 tag 0x12 [])) ∧
      ∀ (face : Fin 4) (template : Fin 8) (background : Fin 16), good → field b 8 1 = face.val →
        field b 9 1 = template.val → field b 13 1 = background.val →
        exec (.laneSetup tag b) s = .next ((s.setLane i { s.lane i with
          state := .idle
          setup := { bandTop := field b 1 2, bandHeight := field b 3 1, x0 := field b 4 2, width := field b 6 2
                     face := face, template := template, gap := field b 10 1, holdPos := field b 11 2
                     background := background, smoothing := decide (field b 14 1 = 1)
                     onEmpty := if field b 15 1 = 1 then .stop else .runBlank
                     fault := if field b 16 1 = 1 then .blank else .skip } }).answered 0x10 tag 0x00 []))

/-- LANE_OFF (R17): an IDLE lane frees its queued items, disarms its four cues, empties its target list and enters OFF;
in every other state it answers BUSY. LANE_RESET (R26): BUSY in OFF; otherwise every item of the lane is freed, its motion
record is cleared, its cues are disarmed and it enters IDLE, the set-up fields, Vc and A kept. -/
def Obligations.LaneOffAndResetClearTheLane : Prop :=
  ∀ (tag : Byte) (b : List Byte) (s : State) (i : LaneId), b.length = 1 → field b 0 1 = i.val →
    (s.holds 0x11 tag b →
      ((s.lane i).state ≠ .idle → exec (.laneOff tag b) s = .next (s.answered 0x11 tag 0x13 [])) ∧
      ((s.lane i).state = .idle → ∃ t : State, t = s.freeItems (s.lane i).queued ∧
        exec (.laneOff tag b) s = .next ((t.setLane i { t.lane i with
          state := .off, targets := []
          cues := (t.lane i).cues.map fun c => { c with armed := false } }).answered 0x11 tag 0x00 []))) ∧
    (s.holds 0x16 tag b →
      ((s.lane i).state = .off → exec (.laneReset tag b) s = .next (s.answered 0x16 tag 0x13 [])) ∧
      ((s.lane i).state ≠ .off → s.ListsAgree → ∃ t : State,
        t = s.freeItems ((s.lane i).visible ++ (s.lane i).queued) ∧
        exec (.laneReset tag b) s = .next ((t.setLane i { s.lane i with
          state := .idle, travel := 0, velocity := 0, nextEntry := 0, staged := none, brake := none, clearing := false
          dwell := 0, entries := 0, runFrames := 0, targets := [], arm := none, visible := [], queued := []
          cues := (s.lane i).cues.map fun c => { c with armed := false } }).answered 0x16 tag 0x00 [])))

/-- Freeing an item (R31): its slot becomes free and its generation rises by 1, 31 wrapping to 0; it leaves its run list;
the count of its symbol or text falls by 1; a visible one leaves its view list and the refresh queue, and a refresh formatting
of it is discarded; no factor is raised and nothing else changes. -/
def Obligations.FreedItemsLeaveNoTrace : Prop :=
  ∀ (s : State) (slot : Nat) (it : Item), s.item? slot = some it → tableRising s.pool.items = true →
    tableRising s.pool.generations = true →
      let t := s.freeItem slot
      t.item? slot = none ∧ (∀ j, j ≠ slot → t.item? j = s.item? j) ∧
      t.pool.generation slot = (s.pool.generation slot + 1) % 32 ∧
      (∀ j, j ≠ slot → t.pool.generation j = s.pool.generation j) ∧
      (∀ i, t.lane i = if i = it.lane then
          { s.lane i with visible := (s.lane i).visible.erase slot, queued := (s.lane i).queued.erase slot }
        else s.lane i) ∧
      (∀ code link, it.content = .quote code link →
        (∀ k, k ≠ link → t.symbol? k = s.symbol? k) ∧
        t.symbol? link = (s.symbol? link).map fun r => { r with
          refCount := r.refCount - 1
          viewList := if it.cell.isSome then r.viewList.erase slot else r.viewList }) ∧
      ((∀ code link, it.content ≠ .quote code link) → t.symbols = s.symbols) ∧
      (∀ id, t.text? id = (s.text? id).map fun r =>
        if it.content = .text id then
          { r with
            refCount := r.refCount - 1
            viewCount := if it.cell.isSome then r.viewCount - 1 else r.viewCount }
        else r) ∧
      ((it.cell = none ∨ (∀ code link, it.content ≠ .quote code link) → t.formatter = s.formatter) ∧
        (it.cell ≠ none → (∃ code link, it.content = .quote code link) → t.formatter = { s.formatter with
          queue := s.formatter.queue.erase slot
          inFlight := s.formatter.inFlight.map fun f =>
            if f.item = slot then { f with discarded := true } else f })) ∧
      t.inReset = s.inReset ∧ t.link = s.link ∧ t.clock = s.clock ∧ t.gpi = s.gpi ∧ t.classes = s.classes ∧
      t.faces = s.faces ∧ t.compositor = s.compositor ∧ t.events = s.events ∧ t.pending = s.pending

/-- LANE_START, immediate form (R18, R19), state by state. -/
def Obligations.LaneStartActsByState : Prop :=
  ∀ (tag : Byte) (b : List Byte) (s : State) (i : LaneId), s.holds 0x12 tag b → b.length = 4 → field b 0 1 = i.val →
    (3 < field b 1 1 → exec (.laneStart tag b) s = .next (s.answered 0x12 tag 0x12 [])) ∧
    (field b 1 1 = 0 →
      let l := s.lane i
      let drained := l.visible = [] ∧ l.queued = [] ∧ l.setup.onEmpty = .stop
      let run := { l with state := .run, velocity := 0, clearing := false, arm := none }
      ((l.state = .off ∨ l.state = .frozen) → exec (.laneStart tag b) s = .next (s.answered 0x12 tag 0x13 [])) ∧
      ((l.state = .run ∨ l.state = .held ∨ l.state = .brake ∧ l.brake ≠ some .ramp) →
        exec (.laneStart tag b) s = .next (s.answered 0x12 tag 0x01 [])) ∧
      (l.state = .brake → l.brake = some .ramp → exec (.laneStart tag b) s =
        .next (((s.setLane i { l with state := .run, brake := none, clearing := false }).raise (.started i)).answered
          0x12 tag 0x00 [])) ∧
      ∀ returns : ReturnState,
        (l.state = .idle ∧ returns = .idle ∨ l.state = .stopped ∧ returns = .stopped ∨
          l.state = .armed ∧ ∃ c m, l.arm = some { condition := c, returns := returns, met := m }) →
        (drained → exec (.laneStart tag b) s = .next (((s.setLane i { l with
            state := if returns = .idle then .idle else .stopped, clearing := false, arm := none }).raise
              (.drained i)).answered 0x12 tag 0x00 [])) ∧
        (¬ drained → returns = .stopped → exec (.laneStart tag b) s =
          .next (((s.setLane i run).raise (.started i)).answered 0x12 tag 0x00 [])) ∧
        (¬ drained → returns = .idle → exec (.laneStart tag b) s =
          .next (((s.setLane i { run with nextEntry := l.travel }).raise (.started i)).answered 0x12 tag 0x00 [])))

/-- LANE_START with a condition (R69): from IDLE or STOPPED, the fields checked, the lane records the condition and its return
state and enters ARMED with V = 0; in every other state it answers BUSY. ARMED_START (R74): a lane ARMED whose condition has
been met starts as the immediate LANE_START starts it from its return state, or completes at once on an empty run list with
on-empty STOP. That a condition is kept with a mark of whether it has been met is the model's own (notes/assumptions/4), and
that ARMED_START leaves any other lane as it is its reading of an event that cannot come there (notes/assumptions/8). -/
def Obligations.LanesAreArmedAndStart : Prop :=
  ∀ (s : State) (i : LaneId),
    let l := s.lane i
    let drained := l.visible = [] ∧ l.queued = [] ∧ l.setup.onEmpty = .stop
    (∀ (tag : Byte) (b : List Byte), s.holds 0x12 tag b → b.length = 4 → field b 0 1 = i.val →
      1 ≤ field b 1 1 → field b 1 1 ≤ 3 →
      let bad := field b 1 1 = 1 ∧ 3 < field b 2 1 ∨
        field b 1 1 = 3 ∧ (field b 3 1 = 0 ∨ 63 < field b 3 1 ∨ (field b 3 1).testBit i.val = true)
      (l.state ≠ .idle → l.state ≠ .stopped → exec (.laneStart tag b) s = .next (s.answered 0x12 tag 0x13 [])) ∧
      ∀ returns : ReturnState, (l.state = .idle ∧ returns = .idle ∨ l.state = .stopped ∧ returns = .stopped) →
        (bad → exec (.laneStart tag b) s = .next (s.answered 0x12 tag 0x12 [])) ∧
        ∀ c : ArmCondition, ¬ bad →
          (field b 1 1 = 1 ∧ (∃ n : GpiId, field b 2 1 = n.val ∧ c = .gpi n) ∨ field b 1 1 = 2 ∧ c = .sync ∨
            field b 1 1 = 3 ∧ c = .stopOf (BitVec.ofNat 6 (field b 3 1))) →
          exec (.laneStart tag b) s = .next ((s.setLane i { l with
            state := .armed, velocity := 0, arm := some { condition := c, returns := returns, met := false } }).answered
              0x12 tag 0x00 [])) ∧
    (∀ (c : ArmCondition) (returns : ReturnState), l.state = .armed →
      l.arm = some { condition := c, returns := returns, met := true } →
      (drained → exec (.armedStart i) s = .next ((s.setLane i { l with
          state := if returns = .idle then .idle else .stopped, clearing := false, arm := none }).raise (.drained i))) ∧
      (¬ drained → exec (.armedStart i) s = .next ((s.setLane i { l with
          state := .run, velocity := 0, clearing := false, arm := none
          nextEntry := if returns = .idle then l.travel else l.nextEntry }).raise (.started i)))) ∧
    (l.state ≠ .armed ∨ l.arm.any (fun a => a.met) = false → exec (.armedStart i) s = .next s)

/-- A coming to rest of lane j (R73, R74): a lane ARMED on STOP_OF with j in its mask starts when every lane of the mask is
then out of RUN and BRAKE, raising STARTED, or, on an empty run list with on-empty STOP, completes its start at once and raises
DRAINED (R19); every other lane is left as it is, and nothing else changes. All lanes are tested on the same moment (the
model's reading, notes/assumptions/10). A lane that the coming to rest reaches late keeps waiting with its condition marked as
met (the mark and the lanes reached late are the model's own, notes/assumptions/4). -/
def Obligations.ComingToRestStartsTheLanesThatWaitForIt : Prop :=
  ∀ (s : State) (late : LaneSet) (j : LaneId),
    let t := s.comesToRest late j
    t = { s with lanes := t.lanes, events := t.events } ∧ t.events.mask = s.events.mask ∧
    (∀ g : GroupId, (∀ k, g ≠ laneGroup k) → t.events.groups[g] = s.events.groups[g]) ∧
    ∀ k : LaneId,
      let l := s.lane k
      let drained := l.visible = [] ∧ l.queued = [] ∧ l.setup.onEmpty = .stop
      let raises := fun u : State => t.events.groups[laneGroup k] = u.events.groups[laneGroup k]
      (∀ (mask : LaneSet) (returns : ReturnState) (m : Bool), l.state = .armed →
        l.arm = some { condition := .stopOf mask, returns := returns, met := m } → mask.getLsbD j.val = true →
        (∀ n : LaneId, mask.getLsbD n.val = true → (s.lane n).state ≠ .run ∧ (s.lane n).state ≠ .brake) →
        (late.getLsbD k.val = true →
          t.lane k = { l with arm := some { condition := .stopOf mask, returns := returns, met := true } } ∧ raises s) ∧
        (late.getLsbD k.val = false → drained →
          t.lane k = { l with
            state := if returns = .idle then .idle else .stopped, clearing := false, arm := none } ∧
          raises (s.raise (.drained k))) ∧
        (late.getLsbD k.val = false → ¬ drained →
          t.lane k = { l with
            state := .run, velocity := 0, clearing := false, arm := none
            nextEntry := if returns = .idle then l.travel else l.nextEntry } ∧
          raises (s.raise (.started k)))) ∧
      ((l.state ≠ .armed ∨ (∀ mask returns m, l.arm = some { condition := .stopOf mask, returns := returns, met := m } →
          mask.getLsbD j.val = false ∨
            ∃ n : LaneId, mask.getLsbD n.val = true ∧ ((s.lane n).state = .run ∨ (s.lane n).state = .brake))) →
        t.lane k = l ∧ raises s)

/-- LANE_STOP (R20 to R23): the table of R20, with what NOW, RAMP and CLEAR do in each state. A stop NOW from RUN or BRAKE
comes to rest, which the lanes armed on it see (R73); `late` names those it reaches late (the model's own operand,
notes/assumptions/4). -/
def Obligations.LaneStopFollowsItsTable : Prop :=
  ∀ (late : LaneSet) (tag : Byte) (b : List Byte) (s : State) (i : LaneId), s.holds 0x13 tag b → b.length = 2 →
    field b 0 1 = i.val →
    let l := s.lane i
    let mode := field b 1 1
    let ends := fun (t : State) (r : Byte) => exec (.laneStop late tag b) s = .next (t.answered 0x13 tag r [])
    (2 < mode → ends s 0x12) ∧
    ((l.state = .off ∨ l.state = .idle ∨ l.state = .stopped ∨ l.state = .frozen) → mode ≤ 2 → ends s 0x01) ∧
    (l.state = .armed → (mode = 1 ∨ mode = 2) → ends s 0x01) ∧
    (∀ c returns m, l.state = .armed → l.arm = some { condition := c, returns := returns, met := m } → mode = 0 →
      ends (s.setLane i { l with state := if returns = .idle then .idle else .stopped, arm := none }) 0x00) ∧
    ((l.state = .run ∨ l.state = .brake) → mode = 0 →
      ends (((s.setLane i { l with
        state := .stopped, velocity := 0, brake := none, dwell := 0, clearing := false }).raise (.stopped i)).comesToRest
          late i) 0x00) ∧
    (l.state = .held → mode = 0 →
      ends ((s.setLane i { l with
        state := .stopped, velocity := 0, brake := none, dwell := 0, clearing := false }).raise (.stopped i)) 0x00) ∧
    ((l.state = .run ∨ l.state = .brake) → l.brake ≠ some .ramp → mode = 1 →
      ends (s.setLane i { l with state := .brake, brake := some .ramp }) 0x00) ∧
    (l.state = .held → mode = 1 → ends ((s.setLane i { l with state := .stopped, dwell := 0 }).raise (.stopped i)) 0x00) ∧
    ((l.state = .run ∨ l.state = .brake) → l.brake = some .ramp → (mode = 1 ∨ mode = 2) → ends s 0x01) ∧
    ((l.state = .run ∨ l.state = .brake ∨ l.state = .held) → l.clearing = true → mode = 2 → ends s 0x01) ∧
    ((l.state = .held ∨ (l.state = .run ∨ l.state = .brake) ∧ l.brake ≠ some .ramp) → l.clearing = false → mode = 2 →
      ends (s.setLane i { l with clearing := true }) 0x00)

/-- LANE_SPEED (R24) and LANE_STAGE (R25). -/
def Obligations.SpeedsAreHeldAndStaged : Prop :=
  ∀ (tag : Byte) (b : List Byte) (s : State) (i : LaneId), b.length = 5 → field b 0 1 = i.val →
    (s.holds 0x14 tag b →
      ((s.lane i).state = .off → exec (.laneSpeed tag b) s = .next (s.answered 0x14 tag 0x13 [])) ∧
      ((s.lane i).state ≠ .off → exec (.laneSpeed tag b) s = .next ((s.setLane i { s.lane i with
        cruise := if 4095 < field b 1 2 then 4095 else field b 1 2
        accel := if field b 3 2 = 0 then 1 else if 1023 < field b 3 2 then 1023 else field b 3 2 }).answered
          0x14 tag 0x00 []))) ∧
    (s.holds 0x15 tag b →
      ((s.lane i).state = .off → exec (.laneStage tag b) s = .next (s.answered 0x15 tag 0x13 [])) ∧
      ((s.lane i).state ≠ .off →
        (field b 3 2 = 0 → exec (.laneStage tag b) s =
          .next ((s.setLane i { s.lane i with staged := none }).answered 0x15 tag 0x00 [])) ∧
        (field b 3 2 ≠ 0 → (4095 < field b 1 2 ∨ 1023 < field b 3 2) →
          exec (.laneStage tag b) s = .next (s.answered 0x15 tag 0x12 [])) ∧
        (field b 3 2 ≠ 0 → field b 1 2 ≤ 4095 → field b 3 2 ≤ 1023 → exec (.laneStage tag b) s =
          .next ((s.setLane i { s.lane i with
            staged := some { cruise := field b 1 2, accel := field b 3 2 } }).answered 0x15 tag 0x00 []))))

/-- HOLD_RELEASE (R54), and HOLD_DWELL_EXPIRY, the last count of R53: a lane in HELD enters RUN with V = 0 and raises
HOLD_RELEASED. The last count as a command of its own is the model's reading (notes/assumptions/5). -/
def Obligations.HoldsEndInRun : Prop :=
  ∀ (tag : Byte) (b : List Byte) (s : State) (i : LaneId),
    let released := (s.setLane i { s.lane i with state := .run, velocity := 0, brake := none, dwell := 0 }).raise
      (.holdReleased i)
    (s.holds 0x30 tag b → b.length = 1 → field b 0 1 = i.val →
      ((s.lane i).state = .held → exec (.holdRelease tag b) s = .next (released.answered 0x30 tag 0x00 [])) ∧
      ((s.lane i).state ≠ .held → exec (.holdRelease tag b) s = .next (s.answered 0x30 tag 0x01 []))) ∧
    ((s.lane i).state = .held → (s.lane i).dwell ≤ 1 → exec (.holdDwellExpiry i) s = .next released) ∧
    ((s.lane i).state ≠ .held ∨ 1 < (s.lane i).dwell → exec (.holdDwellExpiry i) s = .next s)

/-! ### Motion -/

/-- R7: the braking distance of a velocity, by its formula and as the sum of V − A, V − 2A, V − 3A and so on, taken while
they are above 0; it is 0 for every V up to A. -/
def Obligations.BrakingDistanceIsTheSumOfTheSteps : Prop :=
  (∀ a, brakingDistance 0 a = 0) ∧ ∀ v a : Nat, 1 ≤ v → 1 ≤ a →
    brakingDistance v a = (v - 1) / a * v - a * ((v - 1) / a) * ((v - 1) / a + 1) / 2 ∧
    brakingDistance v a = ((List.range v).map fun k => v - (k + 1) * a).sum ∧
    (v ≤ a → brakingDistance v a = 0)

/-- The step of a moving advance (R6, R8 to R10): the ramped step with no target, the test against the braking distance and
the normal or braking step with one, the ramp step, and the end of a ramp. No step lowers the travel, carries it past
2^48 − 1, or past the nearest target, which is reached exactly when the travel equals it. On a landing (R11, R12) every target
at the travel is consumed, V is 0 and the brake kind absent; the lane is STOPPED with dwell 0 after a ramp or when a stop
target is among them, and HELD with the largest dwell otherwise; the cues of the stop targets are disarmed. The step part of
the advance: a step that reaches no target changes the lane alone; the end of a ramp raises STOPPED and comes to rest (R10,
R14); a landing raises HOLD_REACHED for hold targets, CUEk for the stop targets of cue k, SHORT_BRAKE exactly when the braking
velocity exceeds A (R13) and STOPPED when it stops (R14), comes to rest, and sends the sync pulses of the stop targets' cues
(R62). That the rest is tested before the pulses are sent is the model's reading (notes/assumptions/11). -/
def Obligations.StepsStopAtTargetsAndLandOnThem : Prop :=
  (∀ l : Lane, l.Sound → (l.state = .run ∨ l.state = .brake) →
    let r := stepLane l
    let ramps := l.brake = some .ramp
    let v := if l.velocity < l.cruise then min (l.velocity + l.accel) l.cruise else max (l.velocity - l.accel) l.cruise
    let b := if l.accel < l.velocity then l.velocity - l.accel else if l.velocity = 0 then l.accel else l.velocity
    (l.travel ≤ r.lane.travel ∧ r.lane.travel ≤ 2 ^ 48 - 1 ∧ r.lane.travel - l.travel ≤ 4095 ∧ r.lane.targets = l.targets ∧
      ∀ near rest, l.targets = near :: rest →
        r.lane.travel ≤ near.travel ∧ (r.reached = true ↔ r.lane.travel = near.travel)) ∧
    (r.ramp = true ↔ ramps) ∧ (l.targets = [] → r.reached = false) ∧
    (¬ ramps → l.targets = [] → r.lane = { l with
      state := .run, brake := none, velocity := v, travel := min (l.travel + v) (2 ^ 48 - 1) } ∧ r.braking = 0) ∧
    (∀ near rest, ¬ ramps → l.targets = near :: rest →
      let fits := l.state = .run ∧ v + brakingDistance v l.accel ≤ near.travel - l.travel
      (fits → r.lane = { l with velocity := v, travel := l.travel + v } ∧ r.braking = 0) ∧
      (¬ fits → r.braking = b ∧ r.lane = { l with
        state := .brake, brake := some .target, velocity := b
        travel := l.travel + min b (near.travel - l.travel) })) ∧
    (ramps → l.velocity ≤ l.accel → r.reached = false ∧
      r.lane = { l with state := .stopped, brake := none, velocity := 0 }) ∧
    (ramps → l.accel < l.velocity → r.braking = l.velocity - l.accel ∧ r.lane = { l with
      velocity := l.velocity - l.accel
      travel := match l.targets with
        | [] => min (l.travel + (l.velocity - l.accel)) (2 ^ 48 - 1)
        | near :: _ => l.travel + min (l.velocity - l.accel) (near.travel - l.travel) })) ∧
  (∀ (l : Lane) (ramp : Bool),
    let r := l.land ramp
    (∀ t, t ∈ r.targets ↔ t ∈ l.targets ∧ t.travel ≠ l.travel) ∧ r.velocity = 0 ∧ r.brake = none ∧ r.travel = l.travel ∧
    ((ramp = true ∨ ∃ k, { travel := l.travel, kind := .stop k } ∈ l.targets) → r.state = .stopped ∧ r.dwell = 0) ∧
    (ramp = false → (∀ k, { travel := l.travel, kind := .stop k } ∉ l.targets) →
      (∃ d, { travel := l.travel, kind := .hold d } ∈ l.targets) →
        r.state = .held ∧ { travel := l.travel, kind := .hold r.dwell } ∈ l.targets ∧
          ∀ d, { travel := l.travel, kind := .hold d } ∈ l.targets → d ≤ r.dwell) ∧
    ∀ k : CueId, r.cues[k] = if { travel := l.travel, kind := .stop k } ∈ l.targets
      then { l.cues[k] with armed := false } else l.cues[k]) ∧
  ∀ (s : State) (i : LaneId),
    let l := s.lane i
    let r := stepLane l
    let t := s.stepPart i
    let stop := fun k : CueId => ({ travel := r.lane.travel, kind := .stop k } : Target) ∈ l.targets
    (r.reached = false → r.lane.state ≠ .stopped → t = s.setLane i r.lane) ∧
    (r.reached = false → r.lane.state = .stopped →
      t = ((s.setLane i r.lane).raise (.stopped i)).comesToRest 0 i) ∧
    (r.reached = true → ∃ u : State, u = { s with lanes := u.lanes, events := u.events } ∧
      u.lane i = r.lane.land r.ramp ∧ (∀ j, j ≠ i → u.lane j = s.lane j) ∧
      u.events.mask = s.events.mask ∧ (∀ g, g ≠ laneGroup i → u.events.groups[g] = s.events.groups[g]) ∧
      u.events.groups[laneGroup i] =
        { s.events.groups[laneGroup i] with pending := u.events.groups[laneGroup i].pending } ∧
      (∀ n, n < 16 → (u.events.groups[laneGroup i].pending.getLsbD n = true ↔
        s.events.groups[laneGroup i].pending.getLsbD n = true ∨ n = 13 ∧ r.lane.accel < r.braking ∨
          s.events.groups[laneGroup i].enable.getLsbD n = true ∧
            (n = 3 ∧ (∃ d, { travel := r.lane.travel, kind := .hold d } ∈ l.targets) ∨ (∃ k, n = 5 + k.val ∧ stop k) ∨
              n = 1 ∧ (u.lane i).state = .stopped))) ∧
      ∀ mask : LaneSet,
        (∀ j : LaneId, mask.getLsbD j.val = true ↔ ∃ k, stop k ∧ l.cues[k].syncMask.getLsbD j.val = true) →
        t = { s with lanes := t.lanes, events := t.events } ∧ t.events.mask = s.events.mask ∧
        (∀ g : GroupId, (∀ k, g ≠ laneGroup k) → t.events.groups[g] = s.events.groups[g]) ∧ ∀ j : LaneId,
          t.lane j = ((u.comesToRest 0 i).pulses mask).lane j ∧
          t.events.groups[laneGroup j] = ((u.comesToRest 0 i).pulses mask).events.groups[laneGroup j])

/-- A lane with room to brake keeps it: when the nearest target lies at least S(V) ahead of a lane in RUN or braking toward
it, each step either lands on the target with a braking velocity of at most A, so that no SHORT_BRAKE is raised, or leaves at
least S(V) to it (R7 to R9, R13). -/
def Obligations.RoomToBrakeIsKept : Prop :=
  ∀ (l : Lane) (near : Target) (rest : List Target), l.Sound → l.targets = near :: rest →
    (l.state = .run ∨ l.state = .brake ∧ l.brake = some .target) →
    brakingDistance l.velocity l.accel ≤ near.travel - l.travel →
      let r := stepLane l
      (r.reached = true → r.braking ≤ l.accel) ∧
      (r.reached = false → (r.lane.state = .run ∨ r.lane.state = .brake ∧ r.lane.brake = some .target) ∧
        brakingDistance r.lane.velocity r.lane.accel ≤ near.travel - r.lane.travel ∧ r.lane.accel = l.accel)

/-- R36 to R41, entry and retirement in an advance. Entry considers the first queued item, and then the next with the state
that left (R40): it ends while the lane clears, is short of its next entry travel, stands at 2^48 − 1 or shows 64 items, when
no item is queued, and at an item already passed over. The item enters at max(N, T before), its cell holding its rendering,
style and width, each code as wide as its COMPLETE glyph in the lane's face or else the face's default advance, each gap as
wide as it says (R104), its flash 0 and UP and not forced-stale; N moves on, the entries count rises, ENTRY is raised, a QUOTE joins
its symbol's view list (R90) and a TEXT is in view, and its hold target takes its place. A QUOTE without a price raises
FORMAT_FAULT and enters all the same under BLANK; under SKIP it is passed over and disposed of by its passes (R41). The head
of the visible items retires when its right end has passed the left edge, and the next is then examined: with 1 pass left it
is freed and RETIRED raised, otherwise it gives up its cell and its view and goes to the tail with a pass fewer, 0 staying 0. -/
def Obligations.ItemsEnterAndRetireByTheTravel : Prop :=
  let shut := fun l : Lane =>
    l.clearing = true ∨ l.travel < l.nextEntry ∨ 2 ^ 48 - 1 ≤ l.travel ∨ 64 ≤ l.visible.length
  (∀ (s : State) (i : LaneId) (before : Nat), s.ListsAgree →
    s.entryPart i before = enterItems i before (s.lane i).queued.length { state := s, entered := [], passed := [] } ∧
    let run := s.entryPart i before
    shut (run.state.lane i) ∨ (run.state.lane i).queued = [] ∨
      ∃ slot rest, (run.state.lane i).queued = slot :: rest ∧ slot ∈ run.passed) ∧
  (∀ (r : EntryRun) (i : LaneId) (before fuel : Nat), (r.state.lane i).queued = [] →
    enterItems i before (fuel + 1) r = r) ∧
  (∀ (r : EntryRun) (i : LaneId) (before fuel slot : Nat) (rest : List Nat) (it : Item),
    let s := r.state
    let l := s.lane i
    l.queued = slot :: rest → slot ∉ rest → slot ∉ l.visible → s.item? slot = some it → it.lane = i → it.cell = none →
    (shut l ∨ slot ∈ r.passed → enterItems i before (fuel + 1) r = r) ∧
    (¬ shut l → slot ∉ r.passed →
      let unpriced := ∃ code link, it.content = .quote code link ∧ ∀ q, s.symbol? link = some q → q.price = none
      let face := s.faces[l.setup.face]
      let advance := fun code : Byte => match tableFind face.glyphs code.toNat with
        | some g => if g.image.length = g.expected then g.advance else face.defaultAdvance
        | none => face.defaultAdvance
      let entry := max l.nextEntry before
      let hold := entry + (l.setup.width - l.setup.holdPos) * 64
      let enters := fun told : State => ∃ (u : State) (c : Cell),
        enterItems i before (fuel + 1) r = enterItems i before fuel
          { r with state := u, entered := r.entered ++ [s.pool.generation slot * 2048 + slot] } ∧
        u = { s with lanes := u.lanes, pool := { s.pool with items := u.pool.items }, symbols := u.symbols
                     texts := u.texts, events := (told.raise (.entry i)).events } ∧
        u.lane i = { l with
          visible := l.visible ++ [slot], queued := rest, entries := l.entries + 1
          nextEntry := min (entry + (c.width + l.setup.gap) * 64) (2 ^ 48 - 1)
          targets := match it.holdDwell with
            | some d => if hold ≤ 2 ^ 48 - 1 then insertTarget { travel := hold, kind := .hold d } l.targets else l.targets
            | none => l.targets } ∧
        (∀ j, j ≠ i → u.lane j = s.lane j) ∧
        (∀ k, u.item? k = if k = slot then some { it with cell := some c } else s.item? k) ∧
        c.entry = entry ∧ c.flash = 0 ∧ c.flashDir = .up ∧ c.forcedStale = false ∧
        (∀ code link q, it.content = .quote code link → s.symbol? link = some q →
          let fields := renderQuote s.formatter.templates[l.setup.template] q.view
          c.rendering = .quote fields ∧ c.style = q.view.style ∧
            c.width = max (max ((fields.flatMap RenderedField.entries).map fun
              | .glyph code => advance code
              | .gap w => w).sum it.minWidth) 1) ∧
        (∀ id x, it.content = .text id → s.text? id = some x → c.rendering = .text id ∧ c.style = .ink ∧
          c.width = max (max (x.codes.map advance).sum it.minWidth) 1) ∧
        (∀ code, it.content = .mark code → c.rendering = .mark code ∧ c.style = .ink ∧
          c.width = max (max (advance code) it.minWidth) 1) ∧
        (∀ k, u.symbol? k = (s.symbol? k).map fun q =>
          match it.content with
          | .quote _ link => if k = link then { q with viewList := q.viewList ++ [slot] } else q
          | _ => q) ∧
        ∀ id, u.text? id = (s.text? id).map fun x =>
          if it.content = .text id then { x with viewCount := x.viewCount + 1 } else x
      let skips := fun u : State => enterItems i before (fuel + 1) r = enterItems i before fuel
        { r with state := u, passed := slot :: r.passed }
      (¬ unpriced → enters s) ∧ (unpriced → l.setup.fault = .blank → enters (s.raise (.formatFault i))) ∧
      (unpriced → l.setup.fault = .skip →
        (it.passes = 1 → skips (((s.raise (.formatFault i)).freeItem slot).raise (.retired i))) ∧
        (it.passes ≠ 1 → skips (((s.raise (.formatFault i)).updItem slot fun it => { it with passes := it.passes - 1 }
          ).setLane i { l with queued := rest ++ [slot] }))))) ∧
  (∀ (s : State) (i : LaneId), (s.lane i).visible = [] → s.retirePart i = s) ∧
  ∀ (s : State) (i : LaneId) (slot : Nat) (rest : List Nat) (it : Item) (c : Cell),
    let l := s.lane i
    l.visible = slot :: rest → slot ∉ rest → slot ∉ l.queued → s.item? slot = some it → it.lane = i →
    it.cell = some c →
    (l.travel - c.entry < (l.setup.width + c.width) * 64 → s.retirePart i = s) ∧
    ((l.setup.width + c.width) * 64 ≤ l.travel - c.entry →
      (it.passes = 1 → s.retirePart i = ((s.freeItem slot).raise (.retired i)).retirePart i) ∧
      (it.passes ≠ 1 → ∃ u : State, s.retirePart i = u.retirePart i ∧
        u = { s with lanes := u.lanes, pool := { s.pool with items := u.pool.items }, symbols := u.symbols
                     texts := u.texts, formatter := u.formatter } ∧
        u.lane i = { l with visible := rest, queued := l.queued ++ [slot] } ∧ (∀ j, j ≠ i → u.lane j = s.lane j) ∧
        (∀ k, u.item? k = if k = slot then some { it with cell := none, passes := it.passes - 1 } else s.item? k) ∧
        (∀ k, u.symbol? k = (s.symbol? k).map fun q =>
          match it.content with
          | .quote _ link => if k = link then { q with viewList := q.viewList.erase slot } else q
          | _ => q) ∧
        (∀ id, u.text? id = (s.text? id).map fun x =>
          if it.content = .text id then { x with viewCount := x.viewCount - 1 } else x) ∧
        ((∀ code link, it.content ≠ .quote code link) → u.formatter = s.formatter) ∧
        ((∃ code link, it.content = .quote code link) → u.formatter = { s.formatter with
          queue := s.formatter.queue.erase slot
          inFlight := s.formatter.inFlight.map fun f =>
            if f.item = slot then { f with discarded := true } else f })))

/-- The motion record of every lane stays sound, whatever the command: V is 0 outside RUN and BRAKE, a brake kind stands in
BRAKE alone, an arm condition in ARMED alone, a dwell in HELD alone, every target lies ahead of the travel in ascending order,
the ranges of R1 and R2 hold, and at most 64 items are visible (R1 to R4, R34). -/
def Obligations.LaneMotionStaysSound : Prop :=
  ∀ s t : State, (∀ i, (s.lane i).Sound) → step s = .next t → ∀ i, (t.lane i).Sound

/-! ### Items and run lists -/

/-- ITEM_APPEND (R44): the checks in their order; then the lowest-numbered free slot takes the new item, QUEUED, at the tail
of the lane's run list, the count of its symbol or text rises, and the reply gives its handle (R29, R43). -/
def Obligations.ItemsAreAppended : Prop :=
  ∀ (tag : Byte) (b : List Byte) (s : State) (i : LaneId), s.holds 0x20 tag b → b.length = 16 → field b 0 1 = i.val →
    tableRising s.pool.items = true →
    let ends := fun (r : Byte) => exec (.itemAppend tag b) s = .next (s.answered 0x20 tag r [])
    let bad := 2 < field b 1 1 ∨ 4095 < field b 13 2 ∨ 15 < field b 15 1
    let full := ∀ j, j < 2048 → s.item? j ≠ none
    ((s.lane i).state = .off → ends 0x13) ∧
    ((s.lane i).state ≠ .off → bad → ends 0x12) ∧
    ((s.lane i).state ≠ .off → ¬ bad → field b 1 1 = 0 → findCode s.symbols (fieldBytes b 2 8) = none → ends 0x15) ∧
    ((s.lane i).state ≠ .off → ¬ bad → field b 1 1 = 1 → s.text? (field b 2 1) = none → ends 0x16) ∧
    ∀ c : Content, (s.lane i).state ≠ .off → ¬ bad →
      (field b 1 1 = 0 ∧ (∃ link r, findCode s.symbols (fieldBytes b 2 8) = some (link, r) ∧
          c = .quote (fieldBytes b 2 8) link) ∨
        field b 1 1 = 1 ∧ s.text? (field b 2 1) ≠ none ∧ c = .text (field b 2 1) ∨
        field b 1 1 = 2 ∧ c = .mark (b.getD 2 0)) →
      (full → ends 0x19) ∧
      ∀ (slot : Nat) (ink : Fin 16), slot < 2048 → s.item? slot = none → (∀ j, j < slot → s.item? j ≠ none) →
        field b 15 1 = ink.val →
        let it : Item := { lane := i, content := c, passes := field b 10 1
                           holdDwell := if field b 11 2 = 0 then none else some (field b 11 2)
                           minWidth := field b 13 2, ink := ink, cell := none }
        let u := { s with pool := { s.pool with items := tablePut s.pool.items slot it } }
        ∃ t : State, CountChanged (u.setLane i { s.lane i with queued := (s.lane i).queued ++ [slot] }) t c (· + 1) ∧
          exec (.itemAppend tag b) s =
            .next (t.answered 0x20 tag 0x00 (be 2 (s.pool.generation slot * 2048 + slot)))

/-- ITEM_INSERT (R45): a lane number of 6 or more is BAD_PARAM; the position is checked after the field ranges and before the
content; FFFFh, or the last visible item, puts the new item at the front of the queued part, a queued item puts it directly
behind itself, and the count of its symbol or text rises (R43). -/
def Obligations.ItemsAreInserted : Prop :=
  ∀ (tag : Byte) (b : List Byte) (s : State), s.holds 0x21 tag b → b.length = 18 →
    let ends := fun (r : Byte) => exec (.itemInsert tag b) s = .next (s.answered 0x21 tag r [])
    (6 ≤ field b 2 1 → ends 0x12) ∧
    ∀ i : LaneId, field b 2 1 = i.val →
    let bad := 2 < field b 3 1 ∨ 4095 < field b 15 2 ∨ 15 < field b 17 1
    let position := field b 0 2
    ((s.lane i).state = .off → ends 0x13) ∧
    ((s.lane i).state ≠ .off → bad → ends 0x12) ∧
    ((s.lane i).state ≠ .off → ¬ bad → position ≠ 0xFFFF →
      (s.item? (position % 2048) = none ∨ s.pool.generation (position % 2048) ≠ position / 2048) → ends 0x14) ∧
    (∀ it, (s.lane i).state ≠ .off → ¬ bad → position ≠ 0xFFFF → s.item? (position % 2048) = some it →
      s.pool.generation (position % 2048) = position / 2048 →
      (it.lane ≠ i → ends 0x12) ∧
      (it.lane = i → it.cell ≠ none → (s.lane i).visible.getLast? ≠ some (position % 2048) → ends 0x1D)) ∧
    let placed := position = 0xFFFF ∨ ∃ p : Item, s.item? (position % 2048) = some p ∧
      s.pool.generation (position % 2048) = position / 2048 ∧ p.lane = i ∧
      (p.cell ≠ none → (s.lane i).visible.getLast? = some (position % 2048))
    ((s.lane i).state ≠ .off → ¬ bad → placed → field b 3 1 = 0 → findCode s.symbols (fieldBytes b 4 8) = none →
      ends 0x15) ∧
    ((s.lane i).state ≠ .off → ¬ bad → placed → field b 3 1 = 1 → s.text? (field b 4 1) = none → ends 0x16) ∧
    ((s.lane i).state ≠ .off → ¬ bad → placed → tableRising s.pool.items = true →
      (field b 3 1 = 0 → findCode s.symbols (fieldBytes b 4 8) ≠ none) →
      (field b 3 1 = 1 → s.text? (field b 4 1) ≠ none) → (∀ j, j < 2048 → s.item? j ≠ none) → ends 0x19) ∧
    ∀ (c : Content) (slot : Nat) (ink : Fin 16), (s.lane i).state ≠ .off → ¬ bad → tableRising s.pool.items = true →
      (field b 3 1 = 0 ∧ (∃ link r, findCode s.symbols (fieldBytes b 4 8) = some (link, r) ∧
          c = .quote (fieldBytes b 4 8) link) ∨
        field b 3 1 = 1 ∧ s.text? (field b 4 1) ≠ none ∧ c = .text (field b 4 1) ∨
        field b 3 1 = 2 ∧ c = .mark (b.getD 4 0)) →
      slot < 2048 → s.item? slot = none → (∀ j, j < slot → s.item? j ≠ none) → field b 17 1 = ink.val →
      let it : Item := { lane := i, content := c, passes := field b 12 1
                         holdDwell := if field b 13 2 = 0 then none else some (field b 13 2)
                         minWidth := field b 15 2, ink := ink, cell := none }
      let u := { s with pool := { s.pool with items := tablePut s.pool.items slot it } }
      let made := fun queue => ∃ t : State, CountChanged (u.setLane i { s.lane i with queued := queue }) t c (· + 1) ∧
        exec (.itemInsert tag b) s = .next (t.answered 0x21 tag 0x00 (be 2 (s.pool.generation slot * 2048 + slot)))
      (position = 0xFFFF → made (slot :: (s.lane i).queued)) ∧
      ∀ p : Item, position ≠ 0xFFFF → s.item? (position % 2048) = some p →
        s.pool.generation (position % 2048) = position / 2048 → p.lane = i →
        (p.cell ≠ none → (s.lane i).visible.getLast? = some (position % 2048) → made (slot :: (s.lane i).queued)) ∧
        ∀ before after, p.cell = none → (s.lane i).queued = before ++ position % 2048 :: after →
          position % 2048 ∉ before → made (before ++ position % 2048 :: slot :: after)

/-- ITEM_REPLACE (R46), ITEM_REMOVE (R47) and ITEM_PASSES (R48), on an item its handle names; a replaced content moves the
count of its symbol or text to that of the new one (R43). -/
def Obligations.ItemsAreChangedByHandle : Prop :=
  ∀ (tag : Byte) (b : List Byte) (s : State) (slot : Nat) (it : Item), slot < 2048 → s.item? slot = some it →
    field b 0 2 = s.pool.generation slot * 2048 + slot →
    (s.holds 0x24 tag b → b.length = 3 → exec (.itemPasses tag b) s =
      .next ((s.updItem slot fun it => { it with passes := field b 2 1 }).answered 0x24 tag 0x00 [])) ∧
    (s.holds 0x23 tag b → b.length = 2 →
      (it.cell = none → exec (.itemRemove tag b) s = .next ((s.freeItem slot).answered 0x23 tag 0x00 [])) ∧
      (it.cell ≠ none → exec (.itemRemove tag b) s =
        .next ((s.updItem slot fun it => { it with passes := 1 }).answered 0x23 tag 0x03 []))) ∧
    (s.holds 0x22 tag b → b.length = 12 →
      let ends := fun (r : Byte) => exec (.itemReplace tag b) s = .next (s.answered 0x22 tag r [])
      let bad := 2 < field b 2 1 ∨ 15 < field b 11 1
      (bad → ends 0x12) ∧ (¬ bad → it.cell ≠ none → ends 0x1D) ∧
      (¬ bad → it.cell = none → field b 2 1 = 0 → findCode s.symbols (fieldBytes b 3 8) = none → ends 0x15) ∧
      (¬ bad → it.cell = none → field b 2 1 = 1 → s.text? (field b 3 1) = none → ends 0x16) ∧
      ∀ (c : Content) (ink : Fin 16), ¬ bad → it.cell = none → field b 11 1 = ink.val →
        (field b 2 1 = 0 ∧ (∃ link r, findCode s.symbols (fieldBytes b 3 8) = some (link, r) ∧
            c = .quote (fieldBytes b 3 8) link) ∨
          field b 2 1 = 1 ∧ s.text? (field b 3 1) ≠ none ∧ c = .text (field b 3 1) ∨
          field b 2 1 = 2 ∧ c = .mark (b.getD 3 0)) →
        ∃ t u : State, CountChanged s t c (· + 1) ∧ CountChanged t u it.content (· - 1) ∧
          exec (.itemReplace tag b) s =
            .next ((u.updItem slot fun it => { it with content := c, ink := ink }).answered 0x22 tag 0x00 []))

/-- RUN_CLEAR (R49): every queued item of the lane is freed, in whatever state the lane is, and their number is answered;
after it no item of the lane is queued, and its visible items and motion record are as before. -/
def Obligations.RunClearFreesTheQueuedItems : Prop :=
  ∀ (tag : Byte) (b : List Byte) (s : State) (i : LaneId), s.holds 0x25 tag b → b.length = 1 → field b 0 1 = i.val →
    s.ListsAgree → ∃ t : State, t = s.freeItems (s.lane i).queued ∧
      exec (.runClear tag b) s = .next (t.answered 0x25 tag 0x00 (be 2 (s.lane i).queued.length)) ∧
      t.lane i = { s.lane i with queued := [] } ∧ (∀ j, j ≠ i → t.lane j = s.lane j) ∧
      (∀ slot, slot ∈ (s.lane i).queued → t.item? slot = none) ∧
      (∀ slot, slot ∉ (s.lane i).queued → t.item? slot = s.item? slot)

/-- Whatever the command, the run lists and the pool agree: no run list names an item twice, every allocated item stands in
its own lane's run list and in no other, it is VISIBLE exactly in the visible prefix, and lanes in OFF, IDLE or ARMED from
IDLE show nothing (R4, R29, R32, R34). Where they agree, items, symbols, texts and refreshes go on agreeing too: every QUOTE
and TEXT names a symbol or text that is there, which counts the items that name it (R43, R116), a view list is the visible
QUOTEs of its symbol, each once (R90), and refreshes are of visible QUOTEs (R107 to R109). -/
def Obligations.RunListsAndPoolAgree : Prop :=
  ∀ s t : State, s.ListsAgree → step s = .next t → t.ListsAgree ∧ (s.ReferencesAgree → t.ReferencesAgree)

/-! ### Cues -/

/-- CUE_SET (R64, R65): the checks in their order, and what the lane holds after them. CUE_CLEAR (R66): an ARMED cue
becomes DISARMED and its stop target, if its action is STOP_AT, leaves the list; a DISARMED one is answered NO_EFFECT; a cue
index above 3 is BAD_PARAM. -/
def Obligations.CuesAreSetAndCleared : Prop :=
  ∀ (tag : Byte) (b : List Byte) (s : State) (i : LaneId), field b 0 1 = i.val →
    let l := s.lane i
    (s.holds 0x31 tag b → b.length = 13 → 3 < field b 1 1 →
      exec (.cueSet tag b) s = .next (s.answered 0x31 tag 0x12 [])) ∧
    (∀ k : CueId, s.holds 0x31 tag b → b.length = 13 → field b 1 1 = k.val →
      let value := field b 4 6
      let ends := fun (r : Byte) => exec (.cueSet tag b) s = .next (s.answered 0x31 tag r [])
      let bad := 3 < field b 2 1 ∨ 1 < field b 3 1 ∨ 4 < field b 10 1 ∨ 63 < field b 11 1 ∨ 1 < field b 12 1 ∨
        field b 12 1 = 1 ∧ field b 2 1 ≠ 3 ∨ (field b 2 1 = 1 ∨ field b 2 1 = 2) ∧ 2 ^ 32 - 1 < value ∨
        field b 2 1 = 3 ∧ 0xFFFF < value ∨ field b 10 1 = 3 ∧ (field b 2 1 ≠ 0 ∨ field b 3 1 ≠ 0)
      let noItem := field b 2 1 = 3 ∧ (s.item? (value % 2048) = none ∨ s.pool.generation (value % 2048) ≠ value / 2048)
      let otherLane := field b 2 1 = 3 ∧ ∃ it, s.item? (value % 2048) = some it ∧ it.lane ≠ i
      let passed := field b 10 1 = 3 ∧ value ≤ l.travel ∨ field b 3 1 = 1 ∧
        (field b 2 1 = 0 ∧ value ≤ l.travel ∨ field b 2 1 = 1 ∧ value ≤ l.entries.toNat ∨
          field b 2 1 = 2 ∧ value ≤ l.runFrames.toNat)
      (l.state = .off → ends 0x13) ∧ (l.state ≠ .off → bad → ends 0x12) ∧
      (l.state ≠ .off → ¬ bad → noItem → ends 0x14) ∧ (l.state ≠ .off → ¬ bad → ¬ noItem → otherLane → ends 0x12) ∧
      (l.state ≠ .off → ¬ bad → ¬ noItem → ¬ otherLane → passed → ends 0x22) ∧
      ∀ c : Cue, l.state ≠ .off → ¬ bad → ¬ noItem → ¬ otherLane → ¬ passed →
        c.source.code = field b 2 1 → c.method.code = field b 3 1 → c.value = value → c.action.code = field b 10 1 →
        c.syncMask = BitVec.ofNat 6 (field b 11 1) → c.repeats = decide (field b 12 1 = 1) → c.armed = true →
        let kept := if l.cues[k].armed = true ∧ l.cues[k].action = .stopAt
          then l.targets.filter fun t => decide (t.kind ≠ .stop k) else l.targets
        exec (.cueSet tag b) s = .next ((s.setLane i { l with
          cues := l.cues.set k c
          targets := if c.action = .stopAt then insertTarget { travel := value, kind := .stop k } kept else kept
          }).answered 0x31 tag 0x00 [])) ∧
    (s.holds 0x32 tag b → b.length = 2 → 3 < field b 1 1 →
      exec (.cueClear tag b) s = .next (s.answered 0x32 tag 0x12 [])) ∧
    ∀ k : CueId, s.holds 0x32 tag b → b.length = 2 → field b 1 1 = k.val →
      (l.cues[k].armed = false → exec (.cueClear tag b) s = .next (s.answered 0x32 tag 0x01 [])) ∧
      (l.cues[k].armed = true → exec (.cueClear tag b) s = .next ((s.setLane i { l with
        cues := l.cues.set k { l.cues[k] with armed := false }
        targets := if l.cues[k].action = .stopAt
          then l.targets.filter fun t => decide (t.kind ≠ .stop k) else l.targets }).answered 0x32 tag 0x00 []))

/-- Cues in an advance. R57: when the condition of a cue holds, by source and method; only an ARMED cue whose action is not
STOP_AT is evaluated. R63: a sync pulse starts the lanes of its mask that are ARMED on SYNC, as R74 states, and no other. R58:
every matching cue raises its factor, is disarmed unless it repeats, and sends its pulses. R60 and R61: LOAD_STAGED loads the
staged record, and then the most abrupt of the matching stops acts, by the state the lane then holds (R59). -/
def Obligations.CuesMatchAndAct : Prop :=
  (∀ (v : CueView) (c : Cue),
    (v.hits c = true ↔ c.armed = true ∧ c.action ≠ .stopAt ∧ v.holds c = true) ∧
    (c.source = .itemEntry → (v.holds c = true ↔ c.value ∈ v.entered)) ∧
    (∀ before after : Nat,
      (c.source = .travel ∧ before = v.travelBefore ∧ after = v.travelAfter ∨
        c.source = .entries ∧ before = v.entriesBefore.toNat ∧ after = v.entriesAfter.toNat ∨
        c.source = .runFrames ∧ before = v.runBefore.toNat ∧ after = (v.runBefore.toNat + 1) % 2 ^ 32) →
      (c.method = .reach → (v.holds c = true ↔ c.value ≤ after)) ∧
      (c.method = .cross → (v.holds c = true ↔ before < c.value ∧ c.value ≤ after)))) ∧
  (∀ (s : State) (mask : LaneSet),
    let t := s.pulses mask
    t = { s with lanes := t.lanes, events := t.events } ∧ t.events.mask = s.events.mask ∧
    (∀ g : GroupId, (∀ j, g ≠ laneGroup j) → t.events.groups[g] = s.events.groups[g]) ∧
    ∀ j : LaneId,
      let l := s.lane j
      let drained := l.visible = [] ∧ l.queued = [] ∧ l.setup.onEmpty = .stop
      (∀ (returns : ReturnState) (m : Bool), mask.getLsbD j.val = true → l.state = .armed →
        l.arm = some { condition := .sync, returns := returns, met := m } →
        (drained → t.lane j = { l with
            state := if returns = .idle then .idle else .stopped, clearing := false, arm := none } ∧
          t.events.groups[laneGroup j] = (s.raise (.drained j)).events.groups[laneGroup j]) ∧
        (¬ drained → t.lane j = { l with
            state := .run, velocity := 0, clearing := false, arm := none
            nextEntry := if returns = .idle then l.travel else l.nextEntry } ∧
          t.events.groups[laneGroup j] = (s.raise (.started j)).events.groups[laneGroup j])) ∧
      (mask.getLsbD j.val = false ∨ l.state ≠ .armed ∨ (∀ a, l.arm = some a → a.condition ≠ .sync) →
        t.lane j = l ∧ t.events.groups[laneGroup j] = s.events.groups[laneGroup j])) ∧
  ∀ (s : State) (i : LaneId) (v : CueView),
    let l := s.lane i
    let r := s.cuePart i v
    let hit := fun k : CueId => v.hits l.cues[k] = true
    let act := fun a : CueAction => ∃ k, hit k ∧ l.cues[k].action = a
    let moves := l.state = .run ∨ l.state = .brake
    let ramps := ¬ act .stopNow ∧ act .stopRamp
    l.state ≠ .armed → ∃ u : State,
      u = { s with lanes := u.lanes, events := u.events } ∧ u.events.mask = s.events.mask ∧
      (∀ g : GroupId, (∀ j, g ≠ laneGroup j) → u.events.groups[g] = s.events.groups[g]) ∧
      u.events.groups[laneGroup i] =
        { s.events.groups[laneGroup i] with pending := u.events.groups[laneGroup i].pending } ∧
      (u.lane i = { l with cues := (u.lane i).cues, cruise := (u.lane i).cruise, accel := (u.lane i).accel
                           staged := (u.lane i).staged }) ∧
      (∀ k : CueId, (u.lane i).cues[k] =
        if hit k ∧ l.cues[k].repeats = false then { l.cues[k] with armed := false } else l.cues[k]) ∧
      (∀ p, act .loadStaged → l.staged = some p →
        (u.lane i).cruise = p.cruise ∧ (u.lane i).accel = p.accel ∧ (u.lane i).staged = none) ∧
      (¬ act .loadStaged ∨ l.staged = none →
        (u.lane i).cruise = l.cruise ∧ (u.lane i).accel = l.accel ∧ (u.lane i).staged = l.staged) ∧
      (∀ n, n < 16 → (u.events.groups[laneGroup i].pending.getLsbD n = true ↔
        s.events.groups[laneGroup i].pending.getLsbD n = true ∨
          ∃ k, hit k ∧ n = 5 + k.val ∧ s.events.groups[laneGroup i].enable.getLsbD n = true)) ∧
      (∀ mask : LaneSet,
        (∀ j : LaneId, mask.getLsbD j.val = true ↔ ∃ k, hit k ∧ l.cues[k].syncMask.getLsbD j.val = true) →
        ∀ j : LaneId, j ≠ i → u.lane j = (s.pulses mask).lane j ∧
          u.events.groups[laneGroup j] = (s.pulses mask).events.groups[laneGroup j]) ∧
      (act .stopNow → moves → r = ((u.setLane i { u.lane i with
        state := .stopped, velocity := 0, brake := none, dwell := 0, clearing := false }).raise (.stopped i)).comesToRest
          0 i) ∧
      (act .stopNow → l.state = .held → r = (u.setLane i { u.lane i with
        state := .stopped, velocity := 0, brake := none, dwell := 0, clearing := false }).raise (.stopped i)) ∧
      (ramps → moves → l.brake ≠ some .ramp →
        r = u.setLane i { u.lane i with state := .brake, brake := some .ramp }) ∧
      (ramps → l.state = .held → r = (u.setLane i { u.lane i with state := .stopped, dwell := 0 }).raise (.stopped i)) ∧
      (¬ act .stopNow ∧ (¬ act .stopRamp ∨ moves ∧ l.brake = some .ramp) ∨ ¬ moves ∧ l.state ≠ .held → r = u)

/-! ### Queries -/

/-- LANE_QUERY (R27), ITEM_QUERY (R50), RUN_LIST (R51) and CUE_QUERY (R67): what they report; they change nothing. A cue
index of 4 or more is answered BAD_PARAM (section 3.3). -/
def Obligations.LaneAndItemQueriesReport : Prop :=
  ∀ (tag : Byte) (b : List Byte) (s : State) (i : LaneId),
    let l := s.lane i
    let all := l.visible ++ l.queued
    (s.holds 0x17 tag b → b.length = 1 → field b 0 1 = i.val → ∃ state brake : Byte,
      exec (.laneQuery tag b) s = .next (s.answered 0x17 tag 0x00
        (([state, brake, if l.clearing then 1 else 0] : List Byte) ++ be 6 l.travel ++ be 2 l.velocity ++ be 2 l.cruise ++ be 2 l.accel ++
          be 1 l.visible.length ++ be 2 l.queued.length ++ ([if l.targets.isEmpty then 0 else 1] : List Byte) ++
          be 6 (match l.targets with | t :: _ => t.travel | [] => 0) ++ be 2 l.dwell ++ be 4 l.entries.toNat ++
          be 4 l.runFrames.toNat)) ∧
      state = (match l.state with
        | .off => 0 | .idle => 1 | .armed => 2 | .run => 3 | .brake => 4 | .held => 5 | .stopped => 6 | .frozen => 7) ∧
      brake = (match l.brake with | none => 0 | some .target => 1 | some .ramp => 2)) ∧
    (s.holds 0x27 tag b → b.length = 3 → field b 0 1 = i.val →
      let part := (all.drop (field b 1 2)).take 60
      exec (.runList tag b) s = .next (s.answered 0x27 tag 0x00
        (be 1 l.visible.length ++ be 2 all.length ++ be 1 part.length ++
          part.flatMap fun slot => be 2 (s.pool.generation slot * 2048 + slot)))) ∧
    (s.holds 0x33 tag b → b.length = 2 → 3 < field b 1 1 →
      exec (.cueQuery tag b) s = .next (s.answered 0x33 tag 0x12 [])) ∧
    (∀ k : CueId, s.holds 0x33 tag b → b.length = 2 → field b 0 1 = i.val → field b 1 1 = k.val →
      exec (.cueQuery tag b) s = .next (s.answered 0x33 tag 0x00
        (([if l.cues[k].armed then 1 else 0] : List Byte) ++ be 1 l.cues[k].source.code ++ be 1 l.cues[k].method.code ++
          be 6 l.cues[k].value ++ be 1 l.cues[k].action.code ++ be 1 l.cues[k].syncMask.toNat ++
          ([if l.cues[k].repeats then 1 else 0] : List Byte)))) ∧
    ∀ (slot : Nat) (it : Item), s.holds 0x26 tag b → b.length = 2 → slot < 2048 → s.item? slot = some it →
      field b 0 2 = s.pool.generation slot * 2048 + slot → it.lane = i →
      ∃ content cell : List Byte,
        exec (.itemQuery tag b) s = .next (s.answered 0x26 tag 0x00
          (be 2 (field b 0 2) ++ be 1 i.val ++ content ++ be 1 it.passes ++ be 2 (it.holdDwell.getD 0) ++
            be 2 it.minWidth ++ be 1 it.ink.val ++ ([if it.cell.isSome then 1 else 0] : List Byte) ++ be 2 (all.idxOf slot) ++ cell)) ∧
        (∀ code link, it.content = .quote code link → content = (0 : Byte) :: code) ∧
        (∀ id, it.content = .text id → content = (1 : Byte) :: be 1 id ++ ([0, 0, 0, 0, 0, 0, 0] : List Byte)) ∧
        (∀ code, it.content = .mark code → content = ([2, code, 0, 0, 0, 0, 0, 0, 0] : List Byte)) ∧
        (it.cell = none → cell = List.replicate 16 0) ∧
        ∀ c, it.cell = some c → cell =
          beSigned 4 (64 * ((l.setup.x0 : Int) + l.setup.width) - ((l.travel : Int) - c.entry)) ++ be 6 c.entry ++
            be 2 c.width ++ be 1 c.style.code ++ be 1 c.flash ++ be 1 c.flashDir.code ++
            ([if c.forcedStale then 1 else 0] : List Byte)

/-! ### Symbols -/

/-- SYM_DEFINE (R76, R78): the checks in their order, a valid code being 1 to 8 code characters followed by 20h alone; then
the lowest-numbered free slot takes the record. SYM_REMOVE (R79): IN_USE while an item names the symbol, the slot free after
it otherwise. -/
def Obligations.SymbolsAreDefinedAndRemoved : Prop :=
  ∀ (tag : Byte) (b : List Byte) (s : State), tableRising s.symbols = true →
    let code := fieldBytes b 0 8
    (s.holds 0x40 tag b → b.length = 14 →
      let ends := fun (r : Byte) => exec (.symDefine tag b) s = .next (s.answered 0x40 tag r [])
      let valid := ∃ chars : List Byte, chars ≠ [] ∧ chars.length ≤ 8 ∧
        code = chars ++ List.replicate (8 - chars.length) 0x20 ∧
        ∀ c ∈ chars, 0x41 ≤ c.toNat ∧ c.toNat ≤ 0x5A ∨ 0x30 ≤ c.toNat ∧ c.toNat ≤ 0x39 ∨
          c = 0x2E ∨ c = 0x2D ∨ c = 0x2F
      let bad := ¬ valid ∨ 7 < field b 8 1 ∨ 6 < field b 9 1 ∨
        999999999 < field b 10 4 ∧ field b 10 4 ≠ 0xFFFFFFFF
      (bad → ends 0x12) ∧
      (¬ bad → findCode s.symbols code ≠ none → ends 0x17) ∧
      (¬ bad → findCode s.symbols code = none →
        ((∀ j, j < 1024 → s.symbol? j ≠ none) → ends 0x18) ∧
        ∀ (slot : Nat) (cls : Fin 8), slot < 1024 → s.symbol? slot = none → (∀ j, j < slot → s.symbol? j ≠ none) →
          field b 8 1 = cls.val →
          ∃ table : Table SymbolRec,
            exec (.symDefine tag b) s = .next (({ s with symbols := table }).answered 0x40 tag 0x00 (be 2 slot)) ∧
            ∀ j, tableFind table j = if j = slot then
                some { code := code, cls := cls, decimals := field b 9 1, price := none, previous := none
                       reference := if field b 10 4 = 0xFFFFFFFF then none else some (field b 10 4)
                       lastSeq := none, halted := false, stale := false, lastUpdate := s.clock.counter
                       refCount := 0, viewList := [] }
              else s.symbol? j)) ∧
    (s.holds 0x45 tag b → b.length = 8 →
      (findCode s.symbols code = none → exec (.symRemove tag b) s = .next (s.answered 0x45 tag 0x15 [])) ∧
      ∀ slot r, findCode s.symbols code = some (slot, r) →
        (0 < r.refCount → exec (.symRemove tag b) s = .next (s.answered 0x45 tag 0x1B [])) ∧
        (r.refCount = 0 → ∃ table : Table SymbolRec,
          exec (.symRemove tag b) s = .next (({ s with symbols := table }).answered 0x45 tag 0x00 []) ∧
          ∀ j, tableFind table j = if j = slot then none else s.symbol? j))

/-- SYM_PRICE (R80, R81): the checks in their order; an accepted price changes the record, clears a stale flag raising
FRESH, and offers the view list in list order. -/
def Obligations.PriceUpdatesFollowTheirSequence : Prop :=
  ∀ (tag : Byte) (b : List Byte) (s : State), s.holds 0x41 tag b → b.length = 14 → tableRising s.symbols = true →
    let ends := fun (r : Byte) => exec (.symPrice tag b) s = .next (s.answered 0x41 tag r [])
    let seq := field b 8 2
    let price := field b 10 4
    (findCode s.symbols (fieldBytes b 0 8) = none → ends 0x15) ∧
    ∀ slot r, findCode s.symbols (fieldBytes b 0 8) = some (slot, r) →
      let ahead := ∀ l, r.lastSeq = some l →
        1 ≤ (seq + 65536 - l.toNat) % 65536 ∧ (seq + 65536 - l.toNat) % 65536 ≤ 32767
      (999999999 < price → ends 0x12) ∧ (price ≤ 999999999 → r.halted = true → ends 0x1E) ∧
      (price ≤ 999999999 → r.halted = false → ¬ ahead → ends 0x02) ∧
      (price ≤ 999999999 → r.halted = false → ahead → ∃ u : State, u = { s with symbols := u.symbols } ∧
        (∀ j, u.symbol? j = if j = slot then
            some { r with previous := r.price, price := some price, lastSeq := some (BitVec.ofNat 16 seq), stale := false
                          lastUpdate := s.clock.counter }
          else s.symbol? j) ∧
        exec (.symPrice tag b) s = .next ((r.viewList.foldl State.offer (if r.stale then u.raise .fresh else u)).answered
          0x41 tag 0x00 []))

/-- SYM_REFERENCE (R83), SYM_HALT (R84) and SYM_RESUME (R85): what of the record changes, and that the view list is
offered. -/
def Obligations.ReferencesHaltsAndResumesAreOffered : Prop :=
  ∀ (tag : Byte) (b : List Byte) (s : State), tableRising s.symbols = true →
    let changed := fun (slot : Nat) (r : SymbolRec) (c : Instr) (k : Byte) =>
      ∃ u : State, u = { s with symbols := u.symbols } ∧
        (∀ j, u.symbol? j = if j = slot then some r else s.symbol? j) ∧
        exec c s = .next ((r.viewList.foldl State.offer u).answered k tag 0x00 [])
    (s.holds 0x42 tag b → b.length = 12 →
      let v := field b 8 4
      let bad := 999999999 < v ∧ v ≠ 0xFFFFFFFF
      (findCode s.symbols (fieldBytes b 0 8) = none → exec (.symReference tag b) s = .next (s.answered 0x42 tag 0x15 [])) ∧
      ∀ slot r, findCode s.symbols (fieldBytes b 0 8) = some (slot, r) →
        (bad → exec (.symReference tag b) s = .next (s.answered 0x42 tag 0x12 [])) ∧
        (¬ bad → changed slot { r with reference := if v = 0xFFFFFFFF then none else some v }
          (.symReference tag b) 0x42)) ∧
    (s.holds 0x43 tag b → b.length = 8 →
      (findCode s.symbols (fieldBytes b 0 8) = none → exec (.symHalt tag b) s = .next (s.answered 0x43 tag 0x15 [])) ∧
      ∀ slot r, findCode s.symbols (fieldBytes b 0 8) = some (slot, r) →
        (r.halted = true → exec (.symHalt tag b) s = .next (s.answered 0x43 tag 0x01 [])) ∧
        (r.halted = false → changed slot { r with halted := true } (.symHalt tag b) 0x43)) ∧
    (s.holds 0x44 tag b → b.length = 8 →
      (findCode s.symbols (fieldBytes b 0 8) = none → exec (.symResume tag b) s = .next (s.answered 0x44 tag 0x15 [])) ∧
      ∀ slot r, findCode s.symbols (fieldBytes b 0 8) = some (slot, r) →
        (r.halted = false → exec (.symResume tag b) s = .next (s.answered 0x44 tag 0x01 [])) ∧
        (r.halted = true → changed slot { r with halted := false, lastSeq := none } (.symResume tag b) 0x44))

/-- CLASS_SETUP (R77), and SYMBOL_STALE, the check of one symbol in R86. The check as a command of its own is the model's
reading (notes/assumptions/5). -/
def Obligations.ClassesMakeSymbolsStale : Prop :=
  ∀ s : State,
    (∀ (tag : Byte) (b : List Byte), s.holds 0x48 tag b → b.length = 4 →
      (7 < field b 0 1 → exec (.classSetup tag b) s = .next (s.answered 0x48 tag 0x12 [])) ∧
      ∀ k : Fin 8, field b 0 1 = k.val → exec (.classSetup tag b) s =
        .next (({ s with classes := s.classes.set k { staleTimeout := field b 1 2, flashLength := field b 3 1 } }).answered
          0x48 tag 0x00 [])) ∧
    (tableRising s.symbols = true → ∀ slot,
      (s.symbol? slot = none → exec (.symbolStale slot) s = .next s) ∧
      ∀ r, s.symbol? slot = some r →
        let due := 0 < s.classes[r.cls].staleTimeout ∧ r.stale = false ∧
          s.classes[r.cls].staleTimeout ≤ (s.clock.counter - r.lastUpdate).toNat
        (¬ due → exec (.symbolStale slot) s = .next s) ∧
        (due → ∃ u : State, u = { s with symbols := u.symbols } ∧
          (∀ j, u.symbol? j = if j = slot then some { r with stale := true } else s.symbol? j) ∧
          exec (.symbolStale slot) s = .next ((r.viewList.foldl State.offer u).raise .stale)))

/-- IDENT (R176), SYM_QUERY (R89) and SYM_SCAN (R88): what they report; they change nothing. -/
def Obligations.IdentAndSymbolQueriesReport : Prop :=
  ∀ (tag : Byte) (b : List Byte) (s : State),
    (s.holds 0x01 tag [] → exec (.ident tag []) s = .next (s.answered 0x01 tag 0x00
      [0x49, 0x4A, 0x06, 0x06, 0x01, 0x06, 0x08, 0x00, 0x04, 0x00, 0x01, 0x00, 0x20, 0x00])) ∧
    (s.holds 0x46 tag b → b.length = 8 →
      (findCode s.symbols (fieldBytes b 0 8) = none → exec (.symQuery tag b) s = .next (s.answered 0x46 tag 0x15 [])) ∧
      ∀ slot r, findCode s.symbols (fieldBytes b 0 8) = some (slot, r) →
        exec (.symQuery tag b) s = .next (s.answered 0x46 tag 0x00
          (be 2 slot ++ be 1 r.cls.val ++ be 1 r.decimals ++ be 4 (r.price.getD 0xFFFFFFFF) ++
            be 4 (r.previous.getD 0xFFFFFFFF) ++ be 4 (r.reference.getD 0xFFFFFFFF) ++
            ([if r.lastSeq.isSome then 1 else 0] : List Byte) ++ be 2 (r.lastSeq.getD 0).toNat ++
            ([if r.halted then 1 else 0, if r.stale then 1 else 0] : List Byte) ++ be 4 r.lastUpdate.toNat ++
            be 2 r.refCount ++ be 2 r.viewList.length))) ∧
    (s.holds 0x47 tag b → b.length = 3 →
      (2 < field b 2 1 → exec (.symScan tag b) s = .next (s.answered 0x47 tag 0x12 [])) ∧
      (field b 2 1 ≤ 2 → tableRising s.symbols = true → (∀ k r, s.symbol? k = some r → k < 1024) →
        ∃ (found : List (Nat × SymCode)) (next : Nat),
          exec (.symScan tag b) s = .next (s.answered 0x47 tag 0x00
            (be 1 found.length ++ be 2 next ++ found.flatMap Prod.snd)) ∧
          (found.map Prod.fst).Pairwise (· < ·) ∧ found.length ≤ 20 ∧ (found.length < 20 → next = 1024) ∧
          (found.length = 20 → ∃ last, found.getLast? = some last ∧ next = last.1 + 1) ∧
          ∀ k c, (k, c) ∈ found ↔ field b 0 2 ≤ k ∧ k < next ∧ ∃ r, s.symbol? k = some r ∧ r.code = c ∧
            (field b 2 1 = 1 → r.stale = true) ∧ (field b 2 1 = 2 → r.halted = true)))

/-! ### Templates, renderings and refreshes -/

/-- TEMPLATE_SET (R94) and TEMPLATE_QUERY (R96): the checks in their order, TOO_LONG by the worst-case count of R95; a
template taken is reported with its count, and the bytes reported spell the same template again. Of a template set they are
the 109 bytes that followed its number, with 0 in every byte that is not examined; of any template they are 109, its halt
literal and its field slots 0 beyond what they hold, and every slot after the field count 0. -/
def Obligations.TemplatesAreStoredAndReturned : Prop :=
  ∀ (tag : Byte) (b : List Byte) (s : State),
    let worst := fun t : Template => (t.fields.map fun
      | .symbol => 8
      | .price => if t.grouping = true then 12 else 11
      | .change => if t.grouping = true then 13 else 12
      | .percent => 8
      | .arrow => 1
      | .gap _ => 0
      | .literal codes => codes.length).sum
    (s.holds 0x50 tag b → b.length = 110 →
      let ends := fun (r : Byte) => exec (.templateSet tag b) s = .next (s.answered 0x50 tag r [])
      let bad := 7 < field b 0 1 ∨ 1 < field b 1 1 ∨ 246 < field b 2 1 ∨ (∃ k, k < 8 ∧ 15 < field b (12 + k) 1) ∨
        field b 20 1 = 0 ∨ 8 < field b 20 1 ∨ field b 29 1 = 0 ∨ 8 < field b 29 1 ∨
        ∃ k, k < field b 29 1 ∧ (6 < field b (30 + 10 * k) 1 ∨
          field b (30 + 10 * k) 1 = 6 ∧ (field b (31 + 10 * k) 1 = 0 ∨ 8 < field b (31 + 10 * k) 1))
      (bad → ends 0x12) ∧
      ∀ n : Fin 8, ¬ bad → field b 0 1 = n.val → ∃ t : Template,
        let inUse := ∃ i, (s.lane i).state ≠ .off ∧ (s.lane i).state ≠ .idle ∧ (s.lane i).setup.template = n
        t.fields.length = field b 29 1 ∧ t.halt = fieldBytes b 21 (field b 20 1) ∧
        t.grouping = decide (field b 1 1 = 1) ∧
        [t.numerals.digit0, t.numerals.point, t.numerals.separator, t.numerals.plus, t.numerals.minus, t.numerals.percent,
          t.numerals.up, t.numerals.down, t.numerals.flat, t.numerals.noValue] = fieldBytes b 2 10 ∧
        ([t.colours.up, t.colours.down, t.colours.flat, t.colours.halted, t.colours.stale, t.colours.flashUp,
          t.colours.flashDown, t.colours.noPrice].map fun (x : Fin 16) => BitVec.ofNat 8 x.val) = fieldBytes b 12 8 ∧
        (∀ k f, t.fields[k]? = some f →
          f = match field b (30 + 10 * k) 1 with
            | 0 => .symbol | 1 => .price | 2 => .change | 3 => .percent | 4 => .arrow
            | 5 => .gap (field b (31 + 10 * k) 1)
            | _ => .literal (fieldBytes b (32 + 10 * k) (field b (31 + 10 * k) 1))) ∧
        templateOf (be 1 n.val ++ templateBytes t) = some t ∧
        (let examined := fun p : Nat =>
          let slot := (p - 30) / 10
          let j := (p - 30) % 10
          let kind := field b (30 + 10 * slot) 1
          p < 21 ∨ p < 29 ∧ p - 21 < field b 20 1 ∨ p = 29 ∨ 30 ≤ p ∧ slot < field b 29 1 ∧
            (j = 0 ∨ j = 1 ∧ 5 ≤ kind ∨ 2 ≤ j ∧ kind = 6 ∧ j - 2 < field b (31 + 10 * slot) 1)
        (templateBytes t).length = 109 ∧ ∀ p, 1 ≤ p → p < 110 →
          (examined p → (templateBytes t)[p - 1]? = b[p]?) ∧
          (¬ examined p → (templateBytes t)[p - 1]? = some 0)) ∧
        (48 < worst t → ends 0x23) ∧ (worst t ≤ 48 → inUse → ends 0x1B) ∧
        (worst t ≤ 48 → ¬ inUse → exec (.templateSet tag b) s =
          .next (({ s with formatter := { s.formatter with templates := s.formatter.templates.set n t } }).answered
            0x50 tag 0x00 []))) ∧
    (s.holds 0x51 tag b → b.length = 1 →
      (7 < field b 0 1 → exec (.templateQuery tag b) s = .next (s.answered 0x51 tag 0x12 [])) ∧
      ∀ n : Fin 8, field b 0 1 = n.val → ∃ bytes : List Byte,
        bytes = templateBytes s.formatter.templates[n] ∧
        exec (.templateQuery tag b) s =
          .next (s.answered 0x51 tag 0x00 (be 1 (worst s.formatter.templates[n]) ++ bytes)) ∧
        (let t := s.formatter.templates[n]
         t.halt.length ≤ 8 → t.fields.length ≤ 8 → (∀ codes, .literal codes ∈ t.fields → codes.length ≤ 8) →
          let padded := fun (part : List Byte) (size : Nat) => part ++ List.replicate (size - part.length) 0
          bytes.length = 109 ∧
          bytes.take 19 = (if t.grouping then 1 else 0) ::
            [t.numerals.digit0, t.numerals.point, t.numerals.separator, t.numerals.plus, t.numerals.minus,
              t.numerals.percent, t.numerals.up, t.numerals.down, t.numerals.flat, t.numerals.noValue] ++
            [t.colours.up, t.colours.down, t.colours.flat, t.colours.halted, t.colours.stale, t.colours.flashUp,
              t.colours.flashDown, t.colours.noPrice].map (fun (x : Fin 16) => BitVec.ofNat 8 x.val) ∧
          (bytes.drop 19).take 10 = be 1 t.halt.length ++ padded t.halt 8 ++ be 1 t.fields.length ∧
          ∀ k, k < 8 → (bytes.drop (29 + 10 * k)).take 10 = padded (match t.fields[k]? with
            | none => []
            | some .symbol => [0]
            | some .price => [1]
            | some .change => [2]
            | some .percent => [3]
            | some .arrow => [4]
            | some (.gap w) => [5, BitVec.ofNat 8 w]
            | some (.literal codes) => [6, BitVec.ofNat 8 codes.length] ++ codes) 10))

/-- How an amount prints (R97), what the PRICE, CHANGE, PERCENT and ARROW fields render and what the rendered style is in
each condition of the symbol (R98 to R102), and what a whole quote renders: field by field in order, SYMBOL the characters of
the code without its padding, LITERAL its codes, GAP its gap (R103). -/
def Obligations.QuotesPrintAsStated : Prop :=
  ∀ t : Template,
    let digits := fun ds : List Nat => ds.map fun k => t.numerals.digit0 + BitVec.ofNat 8 k
    let spells := fun (ds : List Nat) (n : Nat) => (∀ k ∈ ds, k < 10) ∧ ds.foldl (fun a k => a * 10 + k) 0 = n
    (∀ x d, x ≤ 999999999 → d ≤ 6 → ∃ whole frac : List Nat,
      spells whole (x / 10 ^ d) ∧ whole ≠ [] ∧ (whole.head? = some 0 → whole = [0]) ∧
      spells frac (x % 10 ^ d) ∧ frac.length = d ∧
      let sep := t.numerals.separator
      let n := whole.length
      let grouped :=
        if t.grouping = false ∨ n ≤ 3 then digits whole
        else if n ≤ 6 then digits (whole.take (n - 3)) ++ sep :: digits (whole.drop (n - 3))
        else digits (whole.take (n - 6)) ++ sep :: digits ((whole.drop (n - 6)).take 3) ++ sep :: digits (whole.drop (n - 3))
      printAmount t x d = if d = 0 then grouped else grouped ++ t.numerals.point :: digits frac) ∧
    (∀ (q : QuoteView) (chars : List Byte) (pad : Nat), q.code = chars ++ List.replicate pad 0x20 → 0x20 ∉ chars →
      (renderQuote t q).length = t.fields.length ∧
      ∀ (n : Nat) (f : TemplateField), t.fields[n]? = some f → ∃ r : RenderedField, (renderQuote t q)[n]? = some r ∧
        (r.kind, r.entries) = match f with
          | .symbol => (.symbol, chars.map .glyph)
          | .price => (.price, (priceCodes t q).map .glyph)
          | .change => (.change, (changeField t q).map .glyph)
          | .percent => (.percent, (percentField t q).map .glyph)
          | .arrow => (.arrow, (arrowField t q).map .glyph)
          | .gap w => (.gap, [.gap w])
          | .literal codes => (.literal, codes.map .glyph)) ∧
    ∀ (q : QuoteView) (p : Nat), q.price = some p → q.halted = false →
      priceCodes t q = printAmount t p q.decimals ∧
      ((q.reference = none ∨ q.reference = some 0) → changeField t q = [t.numerals.noValue] ∧
        percentField t q = [t.numerals.noValue] ∧ arrowField t q = [t.numerals.flat] ∧ q.style = .flat) ∧
      (∀ r, q.reference = some r → 0 < r →
        let sign := if r < p then [t.numerals.plus] else if p < r then [t.numerals.minus] else []
        let size := if r < p then p - r else r - p
        let hundredths := min 99999 ((size * 20000 + r) / (2 * r))
        changeField t q = sign ++ printAmount t size q.decimals ∧
        (∃ whole : List Nat, spells whole (hundredths / 100) ∧ whole ≠ [] ∧ (whole.head? = some 0 → whole = [0]) ∧
          percentField t q = sign ++ digits whole ++ [t.numerals.point] ++
            digits [hundredths % 100 / 10, hundredths % 10] ++ [t.numerals.percent]) ∧
        arrowField t q = [if r < p then t.numerals.up else if p < r then t.numerals.down else t.numerals.flat] ∧
        q.style = if r < p then .up else if p < r then .down else .flat) ∧
      (let h : QuoteView := { q with halted := true }
       priceCodes t h = t.halt ∧ changeField t h = [] ∧ percentField t h = [] ∧ arrowField t h = [] ∧
         h.style = .halted) ∧
      ∀ halted : Bool,
        let e : QuoteView := { q with price := none, halted := halted }
        priceCodes t e = [t.numerals.noValue] ∧ changeField t e = [t.numerals.noValue] ∧
          percentField t e = [t.numerals.noValue] ∧ arrowField t e = [t.numerals.flat] ∧ e.style = .noPrice

/-- The worst-case count of a template is the sum of the counts of R95 over its fields, and the template renders every quote
of a price and reference in range, with 0 to 6 decimals, within that many glyph entries; so every template of at most 48
renders every quote within 48 glyph entries (R95, R97 to R103). -/
def Obligations.RenderingsStayWithinTheWorstCount : Prop :=
  ∀ (t : Template) (q : QuoteView), t.halt.length ≤ 8 → q.code.length ≤ 8 → q.decimals ≤ 6 →
    (∀ p, q.price = some p → p ≤ 999999999) → (∀ r, q.reference = some r → r ≤ 999999999) →
      worstCount t = (t.fields.map fun
        | .symbol => 8
        | .price => if t.grouping = true then 12 else 11
        | .change => if t.grouping = true then 13 else 12
        | .percent => 8
        | .arrow => 1
        | .gap _ => 0
        | .literal codes => codes.length).sum ∧
      glyphCount (flatEntries (renderQuote t q)) ≤ worstCount t

/-- An offer follows the tests of R107 in their order, and a free Formatter takes the head at once; REFRESH_TAKE reads the
record as it stands and measures the rendering against the lane's face (R104, R108); REFRESH_COMPLETE publishes a result that fits, holds one that does not, leaves every cell alone
after a discard, and takes the next head (R110 to R112). The take as a command of its own is the model's reading
(notes/assumptions/5), and so is that REFRESH_COMPLETE changes nothing while no formatting is in flight
(notes/assumptions/8). -/
def Obligations.RefreshesAreQueuedAndConcluded : Prop :=
  ∀ s : State,
    let q := s.formatter.queue
    let withFormatter := fun (u : State) (f : Formatter) => { u with formatter := f }
    (∀ slot,
      (slot ∈ q → s.offer slot = s) ∧
      (∀ it, slot ∉ q → 64 ≤ q.length → s.item? slot = some it → ∃ u : State,
        u = (s.updItem slot fun it => { it with cell := it.cell.map fun c => { c with forcedStale := true } }).raise
          (.refreshDropped it.lane) ∧
        s.offer slot = withFormatter u { s.formatter with
          inFlight := s.formatter.inFlight.map fun f => if f.item = slot then { f with overtaken := true } else f }) ∧
      (slot ∉ q → q.length < 64 → s.formatter.inFlight ≠ none →
        s.offer slot = withFormatter s { s.formatter with queue := q ++ [slot] }) ∧
      (slot ∉ q → q.length < 64 → s.formatter.inFlight = none →
        exec .refreshTake (withFormatter s { s.formatter with queue := q ++ [slot] }) = .next (s.offer slot))) ∧
    (s.formatter.inFlight ≠ none ∨ q = [] → exec .refreshTake s = .next s) ∧
    (∀ slot rest it code link r, s.formatter.inFlight = none → q = slot :: rest → s.item? slot = some it →
      it.content = .quote code link → s.symbol? link = some r → ∃ f : Formatting,
        exec .refreshTake s = .next (withFormatter s { s.formatter with queue := rest, inFlight := some f }) ∧
        f.item = slot ∧ f.price = r.price ∧ f.previous = r.previous ∧ f.reference = r.reference ∧
        f.decimals = r.decimals ∧ f.halted = r.halted ∧ f.overtaken = false ∧ f.discarded = false ∧
        f.fields = renderQuote s.formatter.templates[(s.lane it.lane).setup.template] r.view ∧ f.style = r.view.style ∧
        (let face := s.faces[(s.lane it.lane).setup.face]
         let advance := fun code : Byte => match tableFind face.glyphs code.toNat with
          | some g => if g.image.length = g.expected then g.advance else face.defaultAdvance
          | none => face.defaultAdvance
         f.width = ((f.fields.flatMap RenderedField.entries).map fun
          | .glyph code => advance code
          | .gap w => w).sum)) ∧
    (s.formatter.inFlight = none → exec .refreshComplete s = .next s) ∧
    ∀ f : Formatting, s.formatter.inFlight = some f →
      let ends := fun u : State => ∃ t, exec .refreshComplete s = .next t ∧
        exec .refreshTake (withFormatter u { u.formatter with inFlight := none }) = .next t
      (f.discarded = true → ends s) ∧
      ∀ it c, f.discarded = false → s.item? f.item = some it → it.cell = some c →
        (c.width < f.width → ends ((s.updItem f.item fun it =>
          { it with cell := it.cell.map fun c => { c with forcedStale := true } }).raise (.updateHeld it.lane))) ∧
        ∀ code link r fields, it.content = .quote code link → s.symbol? link = some r → c.rendering = .quote fields →
          f.width ≤ c.width →
          let flashes := (∃ x ∈ f.fields, x.kind = .price) ∧ priceEntries f.fields ≠ priceEntries fields ∧
            f.halted = false ∧ c.style ≠ .halted ∧ c.style ≠ .noPrice ∧ f.price ≠ none ∧ f.previous ≠ none ∧
            f.price ≠ f.previous
          let shown : Cell := { c with rendering := .quote f.fields, style := f.style
                                       forcedStale := c.forcedStale && f.overtaken }
          (¬ flashes → ends (s.updItem f.item fun it => { it with cell := some shown })) ∧
          (∀ p p', flashes → f.price = some p → f.previous = some p' →
            ends (s.updItem f.item fun it => { it with cell := some { shown with
              flash := s.classes[r.cls].flashLength, flashDir := if p' < p then .up else .down } }))

/-! ### Text Pool and Glyph Store -/

/-- TEXT_CREATE (R117), TEXT_WRITE (R118) and TEXT_FREE (R119): the checks in their order, and what the pool holds after
them. -/
def Obligations.TextsAreCreatedWrittenAndFreed : Prop :=
  ∀ (tag : Byte) (b : List Byte) (s : State), TextsSound s.texts →
    let id := field b 0 1
    let inView := fun r : TextRec => 0 < r.viewCount ∨
      ∃ sn, s.compositor.inFlight = some sn ∧ ∃ l ∈ sn.lanes, ∃ c ∈ l.cells, c.rendering = .text id
    (s.holds 0x60 tag b → b.length = 3 →
      let length := field b 1 2
      let ends := fun (r : Byte) => exec (.textCreate tag b) s = .next (s.answered 0x60 tag r [])
      let bad := length = 0 ∨ 1024 < length
      let need := (length + 31) / 32
      (bad → ends 0x12) ∧ (¬ bad → s.text? id ≠ none → ends 0x17) ∧
      (¬ bad → s.text? id = none → 256 < (usedBlocks s.texts).length + need → ends 0x19) ∧
      (¬ bad → s.text? id = none → (usedBlocks s.texts).length + need ≤ 256 →
        ∃ (blocks : List Nat) (table : Table TextRec),
          exec (.textCreate tag b) s = .next (({ s with texts := table }).answered 0x60 tag 0x00 (be 1 need)) ∧
          (∀ j, tableFind table j = if j = id then
              some { blocks := blocks, codes := List.replicate length 0x20, refCount := 0, viewCount := 0 }
            else s.text? j) ∧
          blocks.length = need ∧ blocks.Pairwise (· < ·) ∧
          (∀ k ∈ blocks, k < 256 ∧ k ∉ usedBlocks s.texts) ∧
          ∀ k ∈ blocks, ∀ j, j < k → j ∉ usedBlocks s.texts → j ∈ blocks)) ∧
    (s.holds 0x61 tag b → 4 ≤ b.length → b.length ≤ 243 →
      let offset := field b 1 2
      let count := b.length - 3
      let ends := fun (r : Byte) => exec (.textWrite tag b) s = .next (s.answered 0x61 tag r [])
      (s.text? id = none → ends 0x16) ∧
      ∀ r, s.text? id = some r →
        (r.codes.length < offset + count → ends 0x21) ∧ (offset + count ≤ r.codes.length → inView r → ends 0x1C) ∧
        (offset + count ≤ r.codes.length → ¬ inView r → ∃ (codes : List Byte) (table : Table TextRec),
          exec (.textWrite tag b) s = .next (({ s with texts := table }).answered 0x61 tag 0x00 []) ∧
          (∀ j, tableFind table j = if j = id then some { r with codes := codes } else s.text? j) ∧
          codes.length = r.codes.length ∧
          ∀ p, codes[p]? = if offset ≤ p ∧ p < offset + count then b[3 + (p - offset)]? else r.codes[p]?)) ∧
    (s.holds 0x62 tag b → b.length = 1 →
      (s.text? id = none → exec (.textFree tag b) s = .next (s.answered 0x62 tag 0x16 [])) ∧
      ∀ r, s.text? id = some r →
        (0 < r.refCount ∨ inView r → exec (.textFree tag b) s = .next (s.answered 0x62 tag 0x1B [])) ∧
        (r.refCount = 0 → ¬ inView r → ∃ table : Table TextRec,
          exec (.textFree tag b) s = .next (({ s with texts := table }).answered 0x62 tag 0x00 []) ∧
          ∀ j, tableFind table j = if j = id then none else s.text? j))

/-- FACE_SETUP (R124), GLYPH_LOAD (R125, R126) and STORE_QUERY (R127): the checks in their order, what the face holds
after them, and what the query reports. -/
def Obligations.FacesAndGlyphsAreLoaded : Prop :=
  ∀ (tag : Byte) (b : List Byte) (s : State),
    let busy := fun k : Fin 4 =>
      (∃ i, (s.lane i).state ≠ .off ∧ (s.lane i).state ≠ .idle ∧ (s.lane i).setup.face = k) ∨
        ∃ sn, s.compositor.inFlight = some sn ∧ ∃ l ∈ sn.lanes, l.face = k ∧ l.cells ≠ []
    (s.holds 0x63 tag b → b.length = 3 →
      let height := field b 1 1
      let advance := field b 2 1
      let ends := fun (r : Byte) => exec (.faceSetup tag b) s = .next (s.answered 0x63 tag r [])
      let bad := height < 16 ∨ 128 < height ∨ advance = 0 ∨ 63 < advance
      (3 < field b 0 1 → ends 0x12) ∧
      ∀ k : Fin 4, field b 0 1 = k.val →
        let tooLow := ∃ i, (s.lane i).state ≠ .off ∧ (s.lane i).setup.face = k ∧ (s.lane i).setup.bandHeight < height
        (bad → ends 0x12) ∧ (¬ bad → busy k → ends 0x1F) ∧ (¬ bad → ¬ busy k → tooLow → ends 0x12) ∧
        (¬ bad → ¬ busy k → ¬ tooLow → exec (.faceSetup tag b) s = .next
          (({ s with faces := s.faces.set k { height := height, defaultAdvance := advance, glyphs := [] } }).answered
            0x63 tag 0x00 []))) ∧
    (s.holds 0x64 tag b → 6 ≤ b.length → b.length ≤ 245 →
      let code := field b 1 1
      let advance := field b 2 1
      let offset := field b 3 2
      let data := b.drop 5
      let ends := fun (r : Byte) => exec (.glyphLoad tag b) s = .next (s.answered 0x64 tag r [])
      (3 < field b 0 1 → ends 0x12) ∧
      ∀ k : Fin 4, field b 0 1 = k.val → tableRising s.faces[k].glyphs = true →
        let expected := (s.faces[k].height * advance + 1) / 2
        let loaded := fun (g : Option Glyph) (r : Byte) (d : List Byte) => ∃ table : Table Glyph,
          exec (.glyphLoad tag b) s = .next
            (({ s with faces := s.faces.set k { s.faces[k] with glyphs := table } }).answered 0x64 tag r d) ∧
          ∀ c, tableFind table c = if c = code then g else tableFind s.faces[k].glyphs c
        (busy k → ends 0x1F) ∧
        (¬ busy k → offset = 0 →
          let bad := advance = 0 ∨ 63 < advance
          let free := fun (g : Nat) => g < 8192 ∧ ∀ j c r, tableFind s.faces[j].glyphs c = some r → (j ≠ k ∨ c ≠ code) →
            g ∉ r.granules
          (bad → ends 0x12) ∧ (¬ bad → expected < data.length → ends 0x21) ∧
          (¬ bad → data.length ≤ expected → FacesSound s.faces →
            (∀ free' : List Nat, free'.Nodup → (∀ g, g ∈ free' ↔ free g) →
              (free'.length < (expected + 63) / 64 → loaded none 0x1A []) ∧
              ((expected + 63) / 64 ≤ free'.length → ∃ granules : List Nat,
                loaded (some { advance := advance, expected := expected, granules := granules, image := data }) 0x00
                  (be 2 data.length ++ be 2 expected) ∧
                granules.length = (expected + 63) / 64 ∧ granules.Pairwise (· < ·) ∧ (∀ g ∈ granules, free g) ∧
                ∀ g ∈ granules, ∀ j, j < g → free j → j ∈ granules)))) ∧
        (¬ busy k → offset ≠ 0 →
          (tableFind s.faces[k].glyphs code = none → ends 0x20) ∧
          ∀ g, tableFind s.faces[k].glyphs code = some g →
            (offset ≠ g.image.length → ends 0x20) ∧
            (offset = g.image.length → g.expected < offset + data.length → ends 0x21) ∧
            (offset = g.image.length → offset + data.length ≤ g.expected →
              loaded (some { g with image := g.image ++ data }) 0x00
                (be 2 (offset + data.length) ++ be 2 g.expected)))) ∧
    (s.holds 0x65 tag [] → ∃ perFace : Fin 4 → List Byte,
      exec (.storeQuery tag []) s = .next (s.answered 0x65 tag 0x00
        (be 2 (256 - (usedBlocks s.texts).length) ++ be 2 s.texts.length ++
          be 2 (8192 - (heldGranules s.faces).length) ++ perFace 0 ++ perFace 1 ++ perFace 2 ++ perFace 3)) ∧
      ∀ k : Fin 4, ∃ flag : Byte, (flag = 1 ∧ busy k ∨ flag = 0 ∧ ¬ busy k) ∧
        perFace k = be 1 s.faces[k].height ++ be 1 s.faces[k].defaultAdvance ++ be 2 s.faces[k].glyphs.length ++
          be 2 (s.faces[k].glyphs.countP fun (_, g) => decide (g.image.length = g.expected)) ++
          be 2 (s.faces[k].glyphs.flatMap fun (_, g) => g.granules).length ++ [flag])

/-- Whatever the command, the stores and the timing blocks stay sound, each on its own: no block and no granule is held twice,
every text and glyph holds what its length or image needs (R115, R121, R122), the symbols stand in rising order of slot (R75),
the generations too, none above 31 (R29), the refresh queue holds at most 64 items and
none twice (R107), the lock state agrees with the source and the counts keep their ranges (R129, R132), a composition is in
flight exactly while COMPOSING (R142), and a part whose RESET is asserted stands at its power-on values (R165, R178), the
levels at its GPI inputs counted at once (the model's choice, notes/assumptions/2). -/
def Obligations.StoresQueueAndClockStaySound : Prop :=
  ∀ s t : State, step s = .next t →
    (TextsSound s.texts → TextsSound t.texts) ∧ (FacesSound s.faces → FacesSound t.faces) ∧
    (tableRising s.symbols = true → tableRising t.symbols = true) ∧
    (GenerationsSound s.pool.generations → GenerationsSound t.pool.generations) ∧
    (s.formatter.Sound → t.formatter.Sound) ∧ (s.clock.Sound → t.clock.Sound) ∧
    (s.compositor.Sound → t.compositor.Sound) ∧ (s.HeldInReset → t.HeldInReset)

/-! ### Frame Clock and GPI inputs -/

/-- TIMING_SETUP (R135), TIMING_QUERY (R136) and GPI_SETUP (R140). When the frame start measured from the kept origin has
already passed, one is made at once; that this also holds when a clock that was LOCKED leaves its window behind is the model's
reading (notes/assumptions/9). -/
def Obligations.TimingAndInputsAreProgrammed : Prop :=
  ∀ (e : Nat) (order : FrameOrder) (tag : Byte) (b : List Byte) (s : State),
    (s.holds 0x70 tag b → b.length = 6 →
      let c := (s.elapse e).clock
      let period := field b 1 4
      let relock := field b 5 1
      let bad := 1 < field b 0 1 ∨ period < 270000 ∨ 2700000 < period ∨ relock = 0
      let done := fun u : State => exec (.timingSetup e order tag b) s = .next (u.answered 0x70 tag 0x00 [])
      (bad → exec (.timingSetup e order tag b) s = .next ((s.elapse e).answered 0x70 tag 0x12 [])) ∧
      (¬ bad → ∃ c' : FrameClock,
        (field b 0 1 = 0 → c' = { c with source := .free, period := period, relock := relock, lock := .free
                                         consistent := 0, previousPulse := none }) ∧
        (field b 0 1 = 1 → (c.lock = .free ∨ period ≠ c.period) →
          c' = { c with source := .reference, period := period, relock := relock, lock := .seek, consistent := 0
                        previousPulse := none }) ∧
        (field b 0 1 = 1 → c.lock ≠ .free → period = c.period →
          c' = { c with source := .reference, relock := relock }) ∧
        ((period ≠ c.period ∨ c.lock = .locked ∧ c'.lock ≠ .locked) → c.origin + period < c.now →
          done ({ s with clock := c' }.frameStart order c.now)) ∧
        ((period = c.period ∧ (c.lock ≠ .locked ∨ c'.lock = .locked) ∨ c.now ≤ c.origin + period) →
          done { s with clock := c' }))) ∧
    (s.holds 0x71 tag [] → exec (.timingQuery tag []) s = .next (s.answered 0x71 tag 0x00
      (be 1 (match s.clock.source with | .free => 0 | .reference => 1) ++
        be 1 (match s.clock.lock with | .free => 0 | .seek => 1 | .locked => 2 | .holdover => 3) ++
        be 4 s.clock.period ++ be 1 s.clock.relock ++ be 1 s.clock.consistent ++ be 4 s.clock.counter.toNat ++
        be 1 (((List.finRange 4).map fun n : GpiId => if s.gpi[n].counted then 2 ^ n.val else 0).sum) ++
        (List.finRange 4).flatMap fun n : GpiId =>
          be 1 (match s.gpi[n].edge with | .none => 0 | .rise => 1 | .fall => 2 | .both => 3)))) ∧
    (s.holds 0x72 tag b → b.length = 2 →
      (3 < field b 0 1 ∨ 3 < field b 1 1 → exec (.gpiSetup tag b) s = .next (s.answered 0x72 tag 0x12 [])) ∧
      ∀ (n : GpiId) (kind : EdgeKind), field b 0 1 = n.val →
        (match kind with | .none => 0 | .rise => 1 | .fall => 2 | .both => 3) = field b 1 1 →
        exec (.gpiSetup tag b) s =
          .next (({ s with gpi := s.gpi.set n { s.gpi[n] with edge := kind } }).answered 0x72 tag 0x00 []))

/-- GPI_LEVEL_CHANGE and GPI_DEBOUNCE_EXPIRY (R138, R139, R71): the timer starts when the input leaves its counted level and
is cleared when it returns in time; a level that stood for 27,000 ticks is counted, and is an edge when the edge kind selects
it, which raises GPIn and starts the lanes armed on it (R74). That GPI_DEBOUNCE_EXPIRY changes nothing while no timer runs is
the model's reading of an event that cannot come then (notes/assumptions/8); that an expiry which is overdue acts at the
present tick, and that a level change at or after the 27,000 ticks comes after the counted change, is its choice
(notes/assumptions/3), and so are the lanes that the edge reaches late (notes/assumptions/4). -/
def Obligations.GpiChangesAreDebounced : Prop :=
  ∀ (e : Nat) (n : GpiId) (s : State),
    let g := s.gpi[n]
    let now := s.clock.now + e
    let put := fun (u : State) (g' : Gpi) => { u with gpi := u.gpi.set n g' }
    (s.inReset = false → g.debounce = none → g.level = g.counted → exec (.gpiLevelChange e n) s =
      .next (put (s.elapse e) { g with level := !g.level, debounce := some now })) ∧
    (∀ t, s.inReset = false → g.debounce = some t → g.level ≠ g.counted → now < t + 27000 →
      exec (.gpiLevelChange e n) s = .next (put (s.elapse e) { g with level := !g.level, debounce := none })) ∧
    (∀ t, s.inReset = false → g.debounce = some t → t + 27000 ≤ now → ∃ u : State,
      exec (.gpiDebounceExpiry n 0) (s.elapse e) = .next u ∧
      exec (.gpiLevelChange e n) s = exec (.gpiLevelChange 0 n) u) ∧
    (g.debounce = none → ∀ late, exec (.gpiDebounceExpiry n late) s = .next s) ∧
    ∀ t, g.debounce = some t →
      let due := if s.clock.now < t + 27000 then t + 27000 - s.clock.now else 0
      let u := put (s.elapse due) { g with counted := g.level, debounce := none }
      let selected := g.edge = .both ∨ g.edge = .rise ∧ g.level = true ∨ g.edge = .fall ∧ g.level = false
      (∀ late, ¬ selected → exec (.gpiDebounceExpiry n late) s = .next u) ∧
      ∀ late : LaneSet, selected → ∃ v : State, exec (.gpiDebounceExpiry n late) s = .next v ∧
        v = { u with lanes := v.lanes, events := v.events } ∧ v.events.mask = s.events.mask ∧
        (∀ g : GroupId, (∀ i, g ≠ laneGroup i) → v.events.groups[g] = (s.raise (.gpiEdge n)).events.groups[g]) ∧
        ∀ i : LaneId,
          let l := s.lane i
          let drained := l.visible = [] ∧ l.queued = [] ∧ l.setup.onEmpty = .stop
          (∀ (returns : ReturnState) (m : Bool), l.state = .armed →
            l.arm = some { condition := .gpi n, returns := returns, met := m } →
            (late.getLsbD i.val = true →
              v.lane i = { l with arm := some { condition := .gpi n, returns := returns, met := true } } ∧
              v.events.groups[laneGroup i] = s.events.groups[laneGroup i]) ∧
            (late.getLsbD i.val = false → drained →
              v.lane i = { l with
                state := if returns = .idle then .idle else .stopped, clearing := false, arm := none } ∧
              v.events.groups[laneGroup i] = (s.raise (.drained i)).events.groups[laneGroup i]) ∧
            (late.getLsbD i.val = false → ¬ drained →
              v.lane i = { l with
                state := .run, velocity := 0, clearing := false, arm := none
                nextEntry := if returns = .idle then l.travel else l.nextEntry } ∧
              v.events.groups[laneGroup i] = (s.raise (.started i)).events.groups[laneGroup i])) ∧
          (l.state ≠ .armed ∨ (∀ a, l.arm = some a → a.condition ≠ .gpi n) →
            v.lane i = l ∧ v.events.groups[laneGroup i] = s.events.groups[laneGroup i])

/-- A frame start (R130): the counter rises by 1, the origin moves to its instant, FRAME is raised, and what no block's
answer touches is kept. The Symbol Table checks every symbol at the new counter: those that are due become stale, no other
does, and STALE is raised when one does (R86). The Compositor latches in IDLE, raises OVERRUN in COMPOSING, going on under REPEAT and freezing the
output and every lane outside OFF and IDLE under FREEZE, and does nothing in HALTED (R143, R146 to R148). The snapshot holds
the palette, every lane not in OFF with its band, window, face, background, smoothing and travel, and its visible cells in
run-list order, each with the colour that R113 chooses. That one latch follows all the lanes' answers and the staleness check
is the model's reading (notes/assumptions/14). A freeze leaves a lane in RUN, BRAKE, HELD or STOPPED in FROZEN, V and dwell 0,
brake kind and arm condition absent, from its old state or from the one its answer left, as the freeze or the frame start
reaches it first (the order is the command's, notes/assumptions/4), and raises FROZEN; a lane in ARMED too, unless a start that
its empty run list completes at once took it to IDLE before; one in OFF, IDLE or FROZEN is unchanged (R4, R147). FROZEN is
raised by nothing else. -/
def Obligations.FrameStartsReachEveryBlock : Prop :=
  ∀ (s : State) (order : FrameOrder) (instant : Nat),
    let t := s.frameStart order instant
    FrameKeeps s t ∧ t.clock = { s.clock with now := instant, origin := instant, counter := s.clock.counter + 1 } ∧
    t.events.groups[(0 : GroupId)] = (s.raise .frame).events.groups[(0 : GroupId)] ∧
    t.events.groups[(1 : GroupId)] = (if s.compositor.state = .composing then (s.raise .overrun).events
      else s.events).groups[(1 : GroupId)] ∧
    (let due := fun r : SymbolRec => 0 < s.classes[r.cls].staleTimeout ∧ r.stale = false ∧
      s.classes[r.cls].staleTimeout ≤ (s.clock.counter + 1 - r.lastUpdate).toNat
     (∀ k, s.symbol? k = none → t.symbol? k = none) ∧
     (∀ k r, s.symbol? k = some r → ∃ (r' : SymbolRec) (stale : Bool), t.symbol? k = some r' ∧
      r' = { r with stale := stale, refCount := r'.refCount, viewList := r'.viewList } ∧
      (stale = true ↔ r.stale = true ∨ due r)) ∧
     ((∃ k r, s.symbol? k = some r ∧ due r) →
      t.events.groups[(8 : GroupId)] = (s.raise .stale).events.groups[(8 : GroupId)]) ∧
     ((∀ k r, s.symbol? k = some r → ¬ due r) → t.events.groups[(8 : GroupId)] = s.events.groups[(8 : GroupId)])) ∧
    (s.compositor.state = .idle → ∃ shot : Snapshot,
      t.compositor = { s.compositor with state := .composing, inFlight := some shot } ∧ shot = t.snapshot ∧
      shot.palette = s.compositor.palette ∧
      shot.lanes.map LaneShot.lane =
        ([0, 1, 2, 3, 4, 5] : List LaneId).filter (fun i => decide ((t.lane i).state ≠ .off)) ∧
      ∀ m ∈ shot.lanes,
        let l := t.lane m.lane
        let colours := t.formatter.templates[l.setup.template].colours
        m = { lane := m.lane, bandTop := l.setup.bandTop, bandHeight := l.setup.bandHeight, x0 := l.setup.x0
              width := l.setup.width, face := l.setup.face, background := l.setup.background
              smoothing := l.setup.smoothing, travel := l.travel, cells := m.cells } ∧
        ((∀ slot ∈ l.visible, ∃ it c, t.item? slot = some it ∧ it.cell = some c) →
          m.cells.length = l.visible.length ∧
          ∀ (n slot : Nat) (it : Item) (c : Cell), l.visible[n]? = some slot → t.item? slot = some it → it.cell = some c →
            ∃ colour : Fin 16,
              m.cells[n]? = some ({ entry := c.entry, width := c.width, rendering := c.rendering
                                    colour := colour } : CellShot) ∧
              ((∀ code link, it.content ≠ .quote code link) → colour = it.ink) ∧
              ∀ code link r, it.content = .quote code link → t.symbol? link = some r →
                colour =
                  if 0 < c.flash ∧ c.forcedStale = false then
                    match c.flashDir with | .up => colours.flashUp | .down => colours.flashDown
                  else if c.forcedStale = true ∨ r.stale = true then colours.stale
                  else match c.style with
                    | .halted => colours.halted | .noPrice => colours.noPrice | .up => colours.up
                    | .down => colours.down | .flat | .ink => colours.flat)) ∧
    (s.compositor.state = .composing → s.compositor.policy = .repeatFrame → t.compositor = s.compositor) ∧
    (s.compositor.state = .composing → s.compositor.policy = .freeze →
      t.compositor = { s.compositor with state := .halted, inFlight := none } ∧
      ∀ i,
        let l := s.lane i
        let frozen := fun m : Lane => { m with state := .frozen, velocity := 0, brake := none, dwell := 0, arm := none }
        let raised := t.events.groups[laneGroup i].pending.getLsbD 15 = true
        let kept := t.events.groups[laneGroup i].pending.getLsbD 15 = s.events.groups[laneGroup i].pending.getLsbD 15
        let u := ({ s with clock := t.clock }).raise .frame
        ((t.lane i).state = .off ∨ (t.lane i).state = .idle ∨ (t.lane i).state = .frozen) ∧
        (s.ListsAgree →
          (l.state = .off ∨ l.state = .idle ∨ l.state = .frozen → t.lane i = l ∧ kept) ∧
          (l.state = .run ∨ l.state = .brake →
            raised ∧ (∃ m : Lane, t.lane i = frozen m) ∧
            (∀ rest, order = .freeze i :: rest → t.lane i = frozen l) ∧
            ∀ rest, order = .lane i :: rest → t.lane i = frozen ((u.answerFrame i).lane i)) ∧
          (l.state = .held ∨ l.state = .stopped → raised ∧ t.lane i = frozen l) ∧
          (l.state = .armed → (∀ rest, order = .freeze i :: rest → raised ∧ t.lane i = frozen l) ∧
            (raised ∧ (∃ m : Lane, t.lane i = frozen m) ∨
              kept ∧ l.visible = [] ∧ l.queued = [] ∧ l.setup.onEmpty = .stop ∧
                (∃ a, l.arm = some a ∧ a.returns = .idle) ∧
                t.lane i = { l with state := .idle, clearing := false, arm := none })))) ∧
    (¬ (s.compositor.state = .composing ∧ s.compositor.policy = .freeze) → ∀ i : LaneId,
      t.events.groups[laneGroup i].pending.getLsbD 15 = s.events.groups[laneGroup i].pending.getLsbD 15) ∧
    (s.compositor.state = .halted → t.compositor = s.compositor)

/-- FRAME_PERIOD_EXPIRY, WINDOW_EXPIRY and REFERENCE_PULSE (R131 to R134): when each makes a frame start, how pulses are
counted, when the clock locks, and how it loses the lock; no frame start is made while RESET is asserted (R129). That an
expiry whose timer does not run, FRAME_PERIOD_EXPIRY in LOCKED or WINDOW_EXPIRY in any other lock state, changes nothing is the
model's reading of an event that cannot come then (notes/assumptions/8). That an expiry which is overdue acts at the present
tick, and that a pulse which finds the window of a LOCKED clock already past comes after its expiry, is the model's choice
(notes/assumptions/3). -/
def Obligations.TimersAndPulsesDriveTheClock : Prop :=
  ∀ (e : Nat) (order : FrameOrder) (s : State),
    let c := s.clock
    let half := c.period / 200
    (c.lock = .locked → exec (.framePeriodExpiry order) s = .next s) ∧
    (s.inReset = true → exec (.framePeriodExpiry order) s = .next s) ∧
    (s.inReset = false → c.lock ≠ .locked → exec (.framePeriodExpiry order) s =
      .next (s.frameStart order (max c.now (c.origin + c.period)))) ∧
    (c.lock ≠ .locked → exec (.windowExpiry order) s = .next s) ∧
    (c.lock = .locked → ∃ u : State, u = s.frameStart order (max c.now (c.origin + c.period + half)) ∧
      exec (.windowExpiry order) s =
        .next ({ u with clock := { u.clock with lock := .holdover, consistent := 0 } }.raise .refLost)) ∧
    let now := c.now + e
    let pulsed := fun d : FrameClock => { s with clock := { d with now := now, previousPulse := some now } }
    (c.lock = .free → exec (.referencePulse e order) s = .next (s.elapse e)) ∧
    (∀ n, (c.lock = .seek ∨ c.lock = .holdover) →
      ((∃ p, c.previousPulse = some p ∧ p + c.period ≤ now + half ∧ now ≤ p + c.period + half ∧ n = c.consistent + 1) ∨
        (∀ p, c.previousPulse = some p → now + half < p + c.period ∨ p + c.period + half < now) ∧ n = 1) →
      (n < c.relock → exec (.referencePulse e order) s = .next (pulsed { c with consistent := n })) ∧
      (c.relock ≤ n → c.period ≤ 2 * (now - c.origin) → exec (.referencePulse e order) s =
        .next (((pulsed { c with consistent := n, lock := .locked }).raise .locked).frameStart order now)) ∧
      (c.relock ≤ n → 2 * (now - c.origin) < c.period → exec (.referencePulse e order) s =
        .next ((pulsed { c with consistent := n, lock := .locked, origin := now }).raise .locked))) ∧
    (c.lock = .locked →
      (now + half < c.origin + c.period → exec (.referencePulse e order) s =
        .next ((pulsed { c with consistent := 1, lock := .holdover }).raise .refLost)) ∧
      (c.origin + c.period ≤ now + half → now ≤ c.origin + c.period + half → exec (.referencePulse e order) s =
        .next ((pulsed c).frameStart order now)) ∧
      (c.origin + c.period + half < now → ∃ u : State,
        exec (.windowExpiry order) { s with clock := { c with now := c.origin + c.period + half } } = .next u ∧
        exec (.referencePulse e order) s =
          exec (.referencePulse 0 order) { u with clock := { u.clock with now := now } }))

/-- What a lane does at a frame start that freezes nothing, by the state it holds (R5). OFF, IDLE, FROZEN and STOPPED do
nothing. HELD counts its dwell down by 1, and the last count ends the hold: RUN with V = 0, HOLD_RELEASED (R53). The flash of
every visible cell of a lane in HELD or STOPPED falls by 1, to 0 at the least, and that of a lane in FROZEN stays; the
staleness check may mark a cell forced-stale. A lane in RUN, or braking toward a target that is gone, with nothing visible, no
target and no armed cue ramps: V moves by at most A toward Vc, T rises by it up to 2^48 − 1, and the run-frame count rises by
1 (R6, R56); with its clearing flag set it then ends its CLEAR stop (R23), with an empty run list and on-empty STOP it drains
(R42), and it runs on otherwise. The answer of a lane in RUN or BRAKE is the countdown and then the five parts of R5 in their
order, the cues seeing the quantities of R56; a lane in ARMED counts the flash when its return state is STOPPED, and starts
only when the mark of its condition is set (the model's mark, notes/assumptions/4). -/
def Obligations.LanesAnswerFrameStarts : Prop :=
  ∀ (s : State) (order : FrameOrder) (instant : Nat) (i : LaneId),
    let l := s.lane i
    let t := s.frameStart order instant
    let v := if l.velocity < l.cruise then min (l.velocity + l.accel) l.cruise
      else max (l.velocity - l.accel) l.cruise
    let ran := { l with
      state := .run, velocity := v, travel := min (l.travel + v) (2 ^ 48 - 1), brake := none
      runFrames := l.runFrames + 1 }
    let moves := l.state = .run ∨ l.state = .brake ∧ l.brake ≠ some .ramp
    let raised := fun n : Nat => t.events.groups[laneGroup i].pending.getLsbD n = true ↔
      s.events.groups[laneGroup i].pending.getLsbD n = true ∨ s.events.groups[laneGroup i].enable.getLsbD n = true
    let kept := fun n : Nat => t.events.groups[laneGroup i].pending.getLsbD n =
      s.events.groups[laneGroup i].pending.getLsbD n
    let counted := fun c : Cell => { c with flash := c.flash - 1 }
    ((s.compositor.state = .composing → s.compositor.policy = .repeatFrame) →
      (moves → l.clearing = false → l.visible = [] → l.queued = [] → l.targets = [] → l.setup.onEmpty = .runBlank →
        (∀ k : CueId, l.cues[k].armed = false) → t.lane i = ran) ∧
      (s.ListsAgree →
        (l.state = .off ∨ l.state = .idle ∨ l.state = .frozen ∨ l.state = .stopped → t.lane i = l) ∧
        (l.state = .held → 1 < l.dwell → t.lane i = { l with dwell := l.dwell - 1 } ∧ kept 4) ∧
        (l.state = .held → l.dwell ≤ 1 →
          t.lane i = { l with state := .run, velocity := 0, brake := none, dwell := 0 } ∧ raised 4) ∧
        (∀ slot it c, (l.state = .held ∨ l.state = .stopped ∨ l.state = .frozen) → slot ∈ l.visible →
          s.item? slot = some it → it.cell = some c → ∃ stale : Bool, (c.forcedStale = true → stale = true) ∧
            t.item? slot = some { it with cell := some { (if l.state = .frozen then c else counted c) with
              forcedStale := stale } }) ∧
        (moves → l.visible = [] → l.targets = [] → (∀ k : CueId, l.cues[k].armed = false) →
          (l.clearing = true → t.lane i = { ran with state := .stopped, velocity := 0 } ∧ raised 1 ∧ raised 2) ∧
          (l.clearing = false → l.queued = [] → l.setup.onEmpty = .stop →
            t.lane i = { ran with state := .stopped, velocity := 0 } ∧ raised 1 ∧ raised 2)))) ∧
    (s.ListsAgree →
      (∀ a, l.state = .armed → l.arm = some a → ∃ u : State,
        u = { s with pool := { s.pool with items := u.pool.items } } ∧
        (∀ slot, u.item? slot = (s.item? slot).map fun it =>
          if a.returns = .stopped ∧ slot ∈ l.visible then { it with cell := it.cell.map counted } else it) ∧
        (a.met = false → s.answerFrame i = u) ∧ (a.met = true → exec (.armedStart i) u = .next (s.answerFrame i))) ∧
      (l.state = .run ∨ l.state = .brake → ∃ u : State,
        u = { s with pool := { s.pool with items := u.pool.items } } ∧
        (∀ slot, u.item? slot = (s.item? slot).map fun it =>
          if slot ∈ l.visible then { it with cell := it.cell.map counted } else it) ∧
        let run := (((u.stepPart i).retirePart i).clearPart i).entryPart i l.travel
        let w := run.state.drainPart i
        s.answerFrame i = (w.cuePart i
          { travelBefore := l.travel, travelAfter := (w.lane i).travel, entriesBefore := l.entries
            entriesAfter := (w.lane i).entries, runBefore := l.runFrames, entered := run.entered }).updLane i
              fun m => { m with runFrames := m.runFrames + 1 }))

/-- Two frame starts are never closer together than half a period: whatever command but a reset changes the frame counter,
the timing origin, which stood at the last frame start or at a locking pulse after it, has moved by at least half the period
(R130, R133). -/
def Obligations.FrameStartsKeepTheirDistance : Prop :=
  ∀ (c : Instr) (s t : State), s.clock.Sound → (∀ e tag b, c ≠ .deviceReset e tag b) →
    (∀ edge, c ≠ .powerOnReset edge) →
    exec c s = .next t → t.clock.counter ≠ s.clock.counter →
      t.clock.period ≤ 2 * (t.clock.origin - s.clock.origin)

/-! ### Composition and output -/

/-- PALETTE_SET (R141), OUTPUT_SETUP (R150), OUTPUT_RESUME (R149) and COMPOSITION_COMPLETE (R145). The picture is held as
what is drawn in it (the model's own form, notes/assumptions/7); that COMPOSITION_COMPLETE changes nothing outside COMPOSING is
the model's reading of an event that cannot come then (notes/assumptions/8). -/
def Obligations.OutputIsProgrammedAndResumed : Prop :=
  ∀ (tag : Byte) (b : List Byte) (s : State),
    (s.holds 0x78 tag b → b.length = 9 →
      let bad := 15 < field b 0 1 ∨ 1023 < field b 1 2 ∨ 1023 < field b 3 2 ∨ 1023 < field b 5 2 ∨ 1023 < field b 7 2
      (bad → exec (.paletteSet tag b) s = .next (s.answered 0x78 tag 0x12 [])) ∧
      ∀ k : Fin 16, ¬ bad → field b 0 1 = k.val →
        let entry : PaletteEntry := { y := field b 1 2, cb := field b 3 2, cr := field b 5 2, gain := field b 7 2 }
        exec (.paletteSet tag b) s =
          .next (({ s with compositor := { s.compositor with palette := s.compositor.palette.set k entry } }).answered
            0x78 tag 0x00 [])) ∧
    (s.holds 0x79 tag b → b.length = 1 →
      (1 < field b 0 1 → exec (.outputSetup tag b) s = .next (s.answered 0x79 tag 0x12 [])) ∧
      (field b 0 1 ≤ 1 → exec (.outputSetup tag b) s =
        .next (({ s with compositor := { s.compositor with
          policy := if field b 0 1 = 0 then .repeatFrame else .freeze } }).answered 0x79 tag 0x00 []))) ∧
    (s.holds 0x7A tag [] →
      (s.compositor.state ≠ .halted → exec (.outputResume tag []) s = .next (s.answered 0x7A tag 0x01 [])) ∧
      (s.compositor.state = .halted → ∃ u : State,
        exec (.outputResume tag []) s = .next ((u.raise .resumed).answered 0x7A tag 0x00 []) ∧
        u = { s with lanes := u.lanes, compositor := { s.compositor with state := .idle } } ∧
        ∀ i, u.lane i = { s.lane i with
          state := if (s.lane i).state = .frozen then .stopped else (s.lane i).state })) ∧
    (∀ sn, s.compositor.state = .composing → s.compositor.inFlight = some sn → exec .compositionComplete s =
      .next { s with compositor := { s.compositor with state := .idle, inFlight := none, output := s.draw sn } }) ∧
    (s.compositor.state ≠ .composing → exec .compositionComplete s = .next s)

/-- Every pixel of a picture drawn from a palette in range lies in 0..1,023 in each component (R153); a line in no band
shows the empty pixel, a line in some bands the highest-numbered lane's, and that lane shows its background outside its window
and outside its glyph rows (R151, R152). On a glyph row inside its window the pixel takes the cell of largest value, the
earlier among equals: the value is the column coverage of the cell laid out left to right (R105, R122), smoothed between two
columns when the lane smooths (R152), and each component mixes cell colour and background by it (R153). -/
def Obligations.PicturesStayInRangeAndInTheirBands : Prop :=
  ∀ (s : State) (sn : Snapshot) (x y : Nat),
    (∀ k : Fin 16, sn.palette[k].y ≤ 1023 ∧ sn.palette[k].cb ≤ 1023 ∧ sn.palette[k].cr ≤ 1023 ∧
      sn.palette[k].gain ≤ 1023) →
    let p := pixelAt (s.draw sn) x y
    (p.y ≤ 1023 ∧ p.cb ≤ 1023 ∧ p.cr ≤ 1023 ∧ p.key ≤ 1023) ∧
    ((∀ l ∈ sn.lanes, y < l.bandTop ∨ l.bandTop + l.bandHeight ≤ y) → p = { y := 0, cb := 512, cr := 512, key := 0 }) ∧
    ∀ l ∈ sn.lanes, l.bandTop ≤ y → y < l.bandTop + l.bandHeight →
      (∀ m ∈ sn.lanes, m.bandTop ≤ y → y < m.bandTop + m.bandHeight → m = l ∨ m.lane < l.lane) →
      let face := s.faces[l.face]
      let top := l.bandTop + (l.bandHeight - face.height) / 2
      let ground := sn.palette[l.background]
      (x < l.x0 ∨ l.x0 + l.width ≤ x ∨ y < top ∨ top + face.height ≤ y →
        p = { y := ground.y, cb := ground.cb, cr := ground.cr, key := ground.gain }) ∧
      (l.x0 ≤ x → x < l.x0 + l.width → top ≤ y → y < top + face.height →
        let sample := fun (image : List Byte) (n : Nat) =>
          if n % 2 = 0 then (image.getD (n / 2) 0).toNat / 16 else (image.getD (n / 2) 0).toNat % 16
        let glyph : Byte → List Nat := fun code =>
          match tableFind face.glyphs code.toNat with
          | some g => if g.image.length = g.expected
              then (List.range g.advance).map fun k => sample g.image ((y - top) * g.advance + k)
              else List.replicate face.defaultAdvance 0
          | none => List.replicate face.defaultAdvance 0
        let columns : Rendering → List Nat := fun
          | .quote fields => (flatEntries fields).flatMap fun
            | .glyph code => glyph code
            | .gap w => List.replicate w 0
          | .text id => match s.text? id with
            | some r => r.codes.flatMap glyph
            | none => []
          | .mark code => glyph code
        let value := fun c : CellShot =>
          let left : Int := 64 * ((l.x0 : Int) + l.width) - ((l.travel : Int) - c.entry)
          let i := (64 * (x : Int) - left) / 64
          let f := (64 * (x : Int) - left - 64 * i).toNat
          let cover := fun i : Int => if i < 0 ∨ (c.width : Int) ≤ i then 0 else (columns c.rendering).getD i.toNat 0
          if l.smoothing = true then (cover i * (64 - f) + cover (i + 1) * f + 32) / 64 else cover i
        (l.cells = [] → p = { y := ground.y, cb := ground.cb, cr := ground.cr, key := ground.gain }) ∧
        ∀ before c after, l.cells = before ++ c :: after → (∀ d ∈ before, value d < value c) →
          (∀ d ∈ after, value d ≤ value c) →
            let ink := sn.palette[c.colour]
            let mix := fun i b : Nat => (i * value c + b * (15 - value c) + 7) / 15
            value c ≤ 15 ∧ p = { y := mix ink.y ground.y, cb := mix ink.cb ground.cb, cr := mix ink.cr ground.cr
                                 key := mix ink.gain ground.gain })
end

