-- ==== Sys2Proof/Laws/State.lean ====
section
/-! SUPPORT. What each named update of the state changes: one lemma for each field and update, true by definition, and the
lanes, items and cues that an update leaves alone. -/
namespace Sys2Proof.Machine

variable (s : State)

/-! ### setLane -/

@[simp] theorem State.setLane_inReset (i : LaneId) (l : Lane) : (s.setLane i l).inReset = s.inReset := rfl
@[simp] theorem State.setLane_link (i : LaneId) (l : Lane) : (s.setLane i l).link = s.link := rfl
@[simp] theorem State.setLane_clock (i : LaneId) (l : Lane) : (s.setLane i l).clock = s.clock := rfl
@[simp] theorem State.setLane_gpi (i : LaneId) (l : Lane) : (s.setLane i l).gpi = s.gpi := rfl
@[simp] theorem State.setLane_lanes (i : LaneId) (l : Lane) : (s.setLane i l).lanes = s.lanes.set i l := rfl
@[simp] theorem State.setLane_pool (i : LaneId) (l : Lane) : (s.setLane i l).pool = s.pool := rfl
@[simp] theorem State.setLane_symbols (i : LaneId) (l : Lane) : (s.setLane i l).symbols = s.symbols := rfl
@[simp] theorem State.setLane_classes (i : LaneId) (l : Lane) : (s.setLane i l).classes = s.classes := rfl
@[simp] theorem State.setLane_formatter (i : LaneId) (l : Lane) : (s.setLane i l).formatter = s.formatter := rfl
@[simp] theorem State.setLane_texts (i : LaneId) (l : Lane) : (s.setLane i l).texts = s.texts := rfl
@[simp] theorem State.setLane_faces (i : LaneId) (l : Lane) : (s.setLane i l).faces = s.faces := rfl
@[simp] theorem State.setLane_compositor (i : LaneId) (l : Lane) : (s.setLane i l).compositor = s.compositor := rfl
@[simp] theorem State.setLane_events (i : LaneId) (l : Lane) : (s.setLane i l).events = s.events := rfl
@[simp] theorem State.setLane_pending (i : LaneId) (l : Lane) : (s.setLane i l).pending = s.pending := rfl

/-! ### updLane -/

@[simp] theorem State.updLane_inReset (i : LaneId) (f : Lane → Lane) : (s.updLane i f).inReset = s.inReset := rfl
@[simp] theorem State.updLane_link (i : LaneId) (f : Lane → Lane) : (s.updLane i f).link = s.link := rfl
@[simp] theorem State.updLane_clock (i : LaneId) (f : Lane → Lane) : (s.updLane i f).clock = s.clock := rfl
@[simp] theorem State.updLane_gpi (i : LaneId) (f : Lane → Lane) : (s.updLane i f).gpi = s.gpi := rfl
@[simp] theorem State.updLane_lanes (i : LaneId) (f : Lane → Lane) : (s.updLane i f).lanes = s.lanes.set i (f (s.lane i)) := rfl
@[simp] theorem State.updLane_pool (i : LaneId) (f : Lane → Lane) : (s.updLane i f).pool = s.pool := rfl
@[simp] theorem State.updLane_symbols (i : LaneId) (f : Lane → Lane) : (s.updLane i f).symbols = s.symbols := rfl
@[simp] theorem State.updLane_classes (i : LaneId) (f : Lane → Lane) : (s.updLane i f).classes = s.classes := rfl
@[simp] theorem State.updLane_formatter (i : LaneId) (f : Lane → Lane) : (s.updLane i f).formatter = s.formatter := rfl
@[simp] theorem State.updLane_texts (i : LaneId) (f : Lane → Lane) : (s.updLane i f).texts = s.texts := rfl
@[simp] theorem State.updLane_faces (i : LaneId) (f : Lane → Lane) : (s.updLane i f).faces = s.faces := rfl
@[simp] theorem State.updLane_compositor (i : LaneId) (f : Lane → Lane) : (s.updLane i f).compositor = s.compositor := rfl
@[simp] theorem State.updLane_events (i : LaneId) (f : Lane → Lane) : (s.updLane i f).events = s.events := rfl
@[simp] theorem State.updLane_pending (i : LaneId) (f : Lane → Lane) : (s.updLane i f).pending = s.pending := rfl

/-! ### updItem -/

@[simp] theorem State.updItem_inReset (k : Nat) (f : Item → Item) : (s.updItem k f).inReset = s.inReset := rfl
@[simp] theorem State.updItem_link (k : Nat) (f : Item → Item) : (s.updItem k f).link = s.link := rfl
@[simp] theorem State.updItem_clock (k : Nat) (f : Item → Item) : (s.updItem k f).clock = s.clock := rfl
@[simp] theorem State.updItem_gpi (k : Nat) (f : Item → Item) : (s.updItem k f).gpi = s.gpi := rfl
@[simp] theorem State.updItem_lanes (k : Nat) (f : Item → Item) : (s.updItem k f).lanes = s.lanes := rfl
@[simp] theorem State.updItem_pool (k : Nat) (f : Item → Item) : (s.updItem k f).pool = { s.pool with items := tableUpdate s.pool.items k f } := rfl
@[simp] theorem State.updItem_symbols (k : Nat) (f : Item → Item) : (s.updItem k f).symbols = s.symbols := rfl
@[simp] theorem State.updItem_classes (k : Nat) (f : Item → Item) : (s.updItem k f).classes = s.classes := rfl
@[simp] theorem State.updItem_formatter (k : Nat) (f : Item → Item) : (s.updItem k f).formatter = s.formatter := rfl
@[simp] theorem State.updItem_texts (k : Nat) (f : Item → Item) : (s.updItem k f).texts = s.texts := rfl
@[simp] theorem State.updItem_faces (k : Nat) (f : Item → Item) : (s.updItem k f).faces = s.faces := rfl
@[simp] theorem State.updItem_compositor (k : Nat) (f : Item → Item) : (s.updItem k f).compositor = s.compositor := rfl
@[simp] theorem State.updItem_events (k : Nat) (f : Item → Item) : (s.updItem k f).events = s.events := rfl
@[simp] theorem State.updItem_pending (k : Nat) (f : Item → Item) : (s.updItem k f).pending = s.pending := rfl
@[simp] theorem State.updItem_lane (k : Nat) (f : Item → Item) (j : LaneId) : (s.updItem k f).lane j = s.lane j := rfl

/-! ### updSymbol -/

@[simp] theorem State.updSymbol_inReset (k : Nat) (f : SymbolRec → SymbolRec) : (s.updSymbol k f).inReset = s.inReset := rfl
@[simp] theorem State.updSymbol_link (k : Nat) (f : SymbolRec → SymbolRec) : (s.updSymbol k f).link = s.link := rfl
@[simp] theorem State.updSymbol_clock (k : Nat) (f : SymbolRec → SymbolRec) : (s.updSymbol k f).clock = s.clock := rfl
@[simp] theorem State.updSymbol_gpi (k : Nat) (f : SymbolRec → SymbolRec) : (s.updSymbol k f).gpi = s.gpi := rfl
@[simp] theorem State.updSymbol_lanes (k : Nat) (f : SymbolRec → SymbolRec) : (s.updSymbol k f).lanes = s.lanes := rfl
@[simp] theorem State.updSymbol_pool (k : Nat) (f : SymbolRec → SymbolRec) : (s.updSymbol k f).pool = s.pool := rfl
@[simp] theorem State.updSymbol_symbols (k : Nat) (f : SymbolRec → SymbolRec) : (s.updSymbol k f).symbols = tableUpdate s.symbols k f := rfl
@[simp] theorem State.updSymbol_classes (k : Nat) (f : SymbolRec → SymbolRec) : (s.updSymbol k f).classes = s.classes := rfl
@[simp] theorem State.updSymbol_formatter (k : Nat) (f : SymbolRec → SymbolRec) : (s.updSymbol k f).formatter = s.formatter := rfl
@[simp] theorem State.updSymbol_texts (k : Nat) (f : SymbolRec → SymbolRec) : (s.updSymbol k f).texts = s.texts := rfl
@[simp] theorem State.updSymbol_faces (k : Nat) (f : SymbolRec → SymbolRec) : (s.updSymbol k f).faces = s.faces := rfl
@[simp] theorem State.updSymbol_compositor (k : Nat) (f : SymbolRec → SymbolRec) : (s.updSymbol k f).compositor = s.compositor := rfl
@[simp] theorem State.updSymbol_events (k : Nat) (f : SymbolRec → SymbolRec) : (s.updSymbol k f).events = s.events := rfl
@[simp] theorem State.updSymbol_pending (k : Nat) (f : SymbolRec → SymbolRec) : (s.updSymbol k f).pending = s.pending := rfl
@[simp] theorem State.updSymbol_lane (k : Nat) (f : SymbolRec → SymbolRec) (j : LaneId) : (s.updSymbol k f).lane j = s.lane j := rfl

/-! ### updText -/

@[simp] theorem State.updText_inReset (k : Nat) (f : TextRec → TextRec) : (s.updText k f).inReset = s.inReset := rfl
@[simp] theorem State.updText_link (k : Nat) (f : TextRec → TextRec) : (s.updText k f).link = s.link := rfl
@[simp] theorem State.updText_clock (k : Nat) (f : TextRec → TextRec) : (s.updText k f).clock = s.clock := rfl
@[simp] theorem State.updText_gpi (k : Nat) (f : TextRec → TextRec) : (s.updText k f).gpi = s.gpi := rfl
@[simp] theorem State.updText_lanes (k : Nat) (f : TextRec → TextRec) : (s.updText k f).lanes = s.lanes := rfl
@[simp] theorem State.updText_pool (k : Nat) (f : TextRec → TextRec) : (s.updText k f).pool = s.pool := rfl
@[simp] theorem State.updText_symbols (k : Nat) (f : TextRec → TextRec) : (s.updText k f).symbols = s.symbols := rfl
@[simp] theorem State.updText_classes (k : Nat) (f : TextRec → TextRec) : (s.updText k f).classes = s.classes := rfl
@[simp] theorem State.updText_formatter (k : Nat) (f : TextRec → TextRec) : (s.updText k f).formatter = s.formatter := rfl
@[simp] theorem State.updText_texts (k : Nat) (f : TextRec → TextRec) : (s.updText k f).texts = tableUpdate s.texts k f := rfl
@[simp] theorem State.updText_faces (k : Nat) (f : TextRec → TextRec) : (s.updText k f).faces = s.faces := rfl
@[simp] theorem State.updText_compositor (k : Nat) (f : TextRec → TextRec) : (s.updText k f).compositor = s.compositor := rfl
@[simp] theorem State.updText_events (k : Nat) (f : TextRec → TextRec) : (s.updText k f).events = s.events := rfl
@[simp] theorem State.updText_pending (k : Nat) (f : TextRec → TextRec) : (s.updText k f).pending = s.pending := rfl
@[simp] theorem State.updText_lane (k : Nat) (f : TextRec → TextRec) (j : LaneId) : (s.updText k f).lane j = s.lane j := rfl

/-! ### raise -/

@[simp] theorem State.raise_inReset (f : Factor) : (s.raise f).inReset = s.inReset := rfl
@[simp] theorem State.raise_link (f : Factor) : (s.raise f).link = s.link := rfl
@[simp] theorem State.raise_clock (f : Factor) : (s.raise f).clock = s.clock := rfl
@[simp] theorem State.raise_gpi (f : Factor) : (s.raise f).gpi = s.gpi := rfl
@[simp] theorem State.raise_lanes (f : Factor) : (s.raise f).lanes = s.lanes := rfl
@[simp] theorem State.raise_pool (f : Factor) : (s.raise f).pool = s.pool := rfl
@[simp] theorem State.raise_symbols (f : Factor) : (s.raise f).symbols = s.symbols := rfl
@[simp] theorem State.raise_classes (f : Factor) : (s.raise f).classes = s.classes := rfl
@[simp] theorem State.raise_formatter (f : Factor) : (s.raise f).formatter = s.formatter := rfl
@[simp] theorem State.raise_texts (f : Factor) : (s.raise f).texts = s.texts := rfl
@[simp] theorem State.raise_faces (f : Factor) : (s.raise f).faces = s.faces := rfl
@[simp] theorem State.raise_compositor (f : Factor) : (s.raise f).compositor = s.compositor := rfl
@[simp] theorem State.raise_events (f : Factor) : (s.raise f).events = s.events.record f := rfl
@[simp] theorem State.raise_pending (f : Factor) : (s.raise f).pending = s.pending := rfl
@[simp] theorem State.raise_lane (f : Factor) (j : LaneId) : (s.raise f).lane j = s.lane j := rfl

/-! ### elapse -/

@[simp] theorem State.elapse_inReset (e : Nat) : (s.elapse e).inReset = s.inReset := rfl
@[simp] theorem State.elapse_link (e : Nat) : (s.elapse e).link = s.link := rfl
@[simp] theorem State.elapse_clock (e : Nat) : (s.elapse e).clock = { s.clock with now := s.clock.now + e } := rfl
@[simp] theorem State.elapse_gpi (e : Nat) : (s.elapse e).gpi = s.gpi := rfl
@[simp] theorem State.elapse_lanes (e : Nat) : (s.elapse e).lanes = s.lanes := rfl
@[simp] theorem State.elapse_pool (e : Nat) : (s.elapse e).pool = s.pool := rfl
@[simp] theorem State.elapse_symbols (e : Nat) : (s.elapse e).symbols = s.symbols := rfl
@[simp] theorem State.elapse_classes (e : Nat) : (s.elapse e).classes = s.classes := rfl
@[simp] theorem State.elapse_formatter (e : Nat) : (s.elapse e).formatter = s.formatter := rfl
@[simp] theorem State.elapse_texts (e : Nat) : (s.elapse e).texts = s.texts := rfl
@[simp] theorem State.elapse_faces (e : Nat) : (s.elapse e).faces = s.faces := rfl
@[simp] theorem State.elapse_compositor (e : Nat) : (s.elapse e).compositor = s.compositor := rfl
@[simp] theorem State.elapse_events (e : Nat) : (s.elapse e).events = s.events := rfl
@[simp] theorem State.elapse_pending (e : Nat) : (s.elapse e).pending = s.pending := rfl
@[simp] theorem State.elapse_lane (e : Nat) (j : LaneId) : (s.elapse e).lane j = s.lane j := rfl

/-! ### setFace -/

@[simp] theorem State.setFace_inReset (k : Fin 4) (f : Face) : (s.setFace k f).inReset = s.inReset := rfl
@[simp] theorem State.setFace_link (k : Fin 4) (f : Face) : (s.setFace k f).link = s.link := rfl
@[simp] theorem State.setFace_clock (k : Fin 4) (f : Face) : (s.setFace k f).clock = s.clock := rfl
@[simp] theorem State.setFace_gpi (k : Fin 4) (f : Face) : (s.setFace k f).gpi = s.gpi := rfl
@[simp] theorem State.setFace_lanes (k : Fin 4) (f : Face) : (s.setFace k f).lanes = s.lanes := rfl
@[simp] theorem State.setFace_pool (k : Fin 4) (f : Face) : (s.setFace k f).pool = s.pool := rfl
@[simp] theorem State.setFace_symbols (k : Fin 4) (f : Face) : (s.setFace k f).symbols = s.symbols := rfl
@[simp] theorem State.setFace_classes (k : Fin 4) (f : Face) : (s.setFace k f).classes = s.classes := rfl
@[simp] theorem State.setFace_formatter (k : Fin 4) (f : Face) : (s.setFace k f).formatter = s.formatter := rfl
@[simp] theorem State.setFace_texts (k : Fin 4) (f : Face) : (s.setFace k f).texts = s.texts := rfl
@[simp] theorem State.setFace_faces (k : Fin 4) (f : Face) : (s.setFace k f).faces = s.faces.set k f := rfl
@[simp] theorem State.setFace_compositor (k : Fin 4) (f : Face) : (s.setFace k f).compositor = s.compositor := rfl
@[simp] theorem State.setFace_events (k : Fin 4) (f : Face) : (s.setFace k f).events = s.events := rfl
@[simp] theorem State.setFace_pending (k : Fin 4) (f : Face) : (s.setFace k f).pending = s.pending := rfl
@[simp] theorem State.setFace_lane (k : Fin 4) (f : Face) (j : LaneId) : (s.setFace k f).lane j = s.lane j := rfl

/-! ### setGpi -/

@[simp] theorem State.setGpi_inReset (n : GpiId) (g : Gpi) : (s.setGpi n g).inReset = s.inReset := rfl
@[simp] theorem State.setGpi_link (n : GpiId) (g : Gpi) : (s.setGpi n g).link = s.link := rfl
@[simp] theorem State.setGpi_clock (n : GpiId) (g : Gpi) : (s.setGpi n g).clock = s.clock := rfl
@[simp] theorem State.setGpi_gpi (n : GpiId) (g : Gpi) : (s.setGpi n g).gpi = s.gpi.set n g := rfl
@[simp] theorem State.setGpi_lanes (n : GpiId) (g : Gpi) : (s.setGpi n g).lanes = s.lanes := rfl
@[simp] theorem State.setGpi_pool (n : GpiId) (g : Gpi) : (s.setGpi n g).pool = s.pool := rfl
@[simp] theorem State.setGpi_symbols (n : GpiId) (g : Gpi) : (s.setGpi n g).symbols = s.symbols := rfl
@[simp] theorem State.setGpi_classes (n : GpiId) (g : Gpi) : (s.setGpi n g).classes = s.classes := rfl
@[simp] theorem State.setGpi_formatter (n : GpiId) (g : Gpi) : (s.setGpi n g).formatter = s.formatter := rfl
@[simp] theorem State.setGpi_texts (n : GpiId) (g : Gpi) : (s.setGpi n g).texts = s.texts := rfl
@[simp] theorem State.setGpi_faces (n : GpiId) (g : Gpi) : (s.setGpi n g).faces = s.faces := rfl
@[simp] theorem State.setGpi_compositor (n : GpiId) (g : Gpi) : (s.setGpi n g).compositor = s.compositor := rfl
@[simp] theorem State.setGpi_events (n : GpiId) (g : Gpi) : (s.setGpi n g).events = s.events := rfl
@[simp] theorem State.setGpi_pending (n : GpiId) (g : Gpi) : (s.setGpi n g).pending = s.pending := rfl
@[simp] theorem State.setGpi_lane (n : GpiId) (g : Gpi) (j : LaneId) : (s.setGpi n g).lane j = s.lane j := rfl

/-! ### answered -/

@[simp] theorem State.answered_inReset (k t r : Byte) (d : List Byte) : (s.answered k t r d).inReset = s.inReset := rfl
@[simp] theorem State.answered_clock (k t r : Byte) (d : List Byte) : (s.answered k t r d).clock = s.clock := rfl
@[simp] theorem State.answered_gpi (k t r : Byte) (d : List Byte) : (s.answered k t r d).gpi = s.gpi := rfl
@[simp] theorem State.answered_lanes (k t r : Byte) (d : List Byte) : (s.answered k t r d).lanes = s.lanes := rfl
@[simp] theorem State.answered_pool (k t r : Byte) (d : List Byte) : (s.answered k t r d).pool = s.pool := rfl
@[simp] theorem State.answered_symbols (k t r : Byte) (d : List Byte) : (s.answered k t r d).symbols = s.symbols := rfl
@[simp] theorem State.answered_classes (k t r : Byte) (d : List Byte) : (s.answered k t r d).classes = s.classes := rfl
@[simp] theorem State.answered_formatter (k t r : Byte) (d : List Byte) : (s.answered k t r d).formatter = s.formatter := rfl
@[simp] theorem State.answered_texts (k t r : Byte) (d : List Byte) : (s.answered k t r d).texts = s.texts := rfl
@[simp] theorem State.answered_faces (k t r : Byte) (d : List Byte) : (s.answered k t r d).faces = s.faces := rfl
@[simp] theorem State.answered_compositor (k t r : Byte) (d : List Byte) : (s.answered k t r d).compositor = s.compositor := rfl
@[simp] theorem State.answered_events (k t r : Byte) (d : List Byte) : (s.answered k t r d).events = s.events := rfl
@[simp] theorem State.answered_pending (k t r : Byte) (d : List Byte) : (s.answered k t r d).pending = s.pending := rfl
@[simp] theorem State.answered_lane (k t r : Byte) (d : List Byte) (j : LaneId) : (s.answered k t r d).lane j = s.lane j := rfl

/-! ### reply -/

@[simp] theorem State.reply_link (f : Frame) (r : Reply) : (s.reply f r).link = { s.link with decoder := none }.place (replyFrame f r) := rfl
@[simp] theorem State.reply_inReset (f : Frame) (r : Reply) : (s.reply f r).inReset = s.inReset := rfl
@[simp] theorem State.reply_clock (f : Frame) (r : Reply) : (s.reply f r).clock = s.clock := rfl
@[simp] theorem State.reply_gpi (f : Frame) (r : Reply) : (s.reply f r).gpi = s.gpi := rfl
@[simp] theorem State.reply_lanes (f : Frame) (r : Reply) : (s.reply f r).lanes = s.lanes := rfl
@[simp] theorem State.reply_pool (f : Frame) (r : Reply) : (s.reply f r).pool = s.pool := rfl
@[simp] theorem State.reply_symbols (f : Frame) (r : Reply) : (s.reply f r).symbols = s.symbols := rfl
@[simp] theorem State.reply_classes (f : Frame) (r : Reply) : (s.reply f r).classes = s.classes := rfl
@[simp] theorem State.reply_formatter (f : Frame) (r : Reply) : (s.reply f r).formatter = s.formatter := rfl
@[simp] theorem State.reply_texts (f : Frame) (r : Reply) : (s.reply f r).texts = s.texts := rfl
@[simp] theorem State.reply_faces (f : Frame) (r : Reply) : (s.reply f r).faces = s.faces := rfl
@[simp] theorem State.reply_compositor (f : Frame) (r : Reply) : (s.reply f r).compositor = s.compositor := rfl
@[simp] theorem State.reply_events (f : Frame) (r : Reply) : (s.reply f r).events = s.events := rfl
@[simp] theorem State.reply_pending (f : Frame) (r : Reply) : (s.reply f r).pending = s.pending := rfl
@[simp] theorem State.reply_lane (f : Frame) (r : Reply) (j : LaneId) : (s.reply f r).lane j = s.lane j := rfl

/-! ### withLink -/

@[simp] theorem State.withLink_link (k : Link) : (s.withLink k).link = k := rfl
@[simp] theorem State.withLink_inReset (k : Link) : (s.withLink k).inReset = s.inReset := rfl
@[simp] theorem State.withLink_clock (k : Link) : (s.withLink k).clock = s.clock := rfl
@[simp] theorem State.withLink_gpi (k : Link) : (s.withLink k).gpi = s.gpi := rfl
@[simp] theorem State.withLink_lanes (k : Link) : (s.withLink k).lanes = s.lanes := rfl
@[simp] theorem State.withLink_pool (k : Link) : (s.withLink k).pool = s.pool := rfl
@[simp] theorem State.withLink_symbols (k : Link) : (s.withLink k).symbols = s.symbols := rfl
@[simp] theorem State.withLink_classes (k : Link) : (s.withLink k).classes = s.classes := rfl
@[simp] theorem State.withLink_formatter (k : Link) : (s.withLink k).formatter = s.formatter := rfl
@[simp] theorem State.withLink_texts (k : Link) : (s.withLink k).texts = s.texts := rfl
@[simp] theorem State.withLink_faces (k : Link) : (s.withLink k).faces = s.faces := rfl
@[simp] theorem State.withLink_compositor (k : Link) : (s.withLink k).compositor = s.compositor := rfl
@[simp] theorem State.withLink_events (k : Link) : (s.withLink k).events = s.events := rfl
@[simp] theorem State.withLink_pending (k : Link) : (s.withLink k).pending = s.pending := rfl
@[simp] theorem State.withLink_lane (k : Link) (j : LaneId) : (s.withLink k).lane j = s.lane j := rfl

/-! ### withEvents -/

@[simp] theorem State.withEvents_inReset (u : EventUnit) : (s.withEvents u).inReset = s.inReset := rfl
@[simp] theorem State.withEvents_link (u : EventUnit) : (s.withEvents u).link = s.link := rfl
@[simp] theorem State.withEvents_clock (u : EventUnit) : (s.withEvents u).clock = s.clock := rfl
@[simp] theorem State.withEvents_gpi (u : EventUnit) : (s.withEvents u).gpi = s.gpi := rfl
@[simp] theorem State.withEvents_lanes (u : EventUnit) : (s.withEvents u).lanes = s.lanes := rfl
@[simp] theorem State.withEvents_pool (u : EventUnit) : (s.withEvents u).pool = s.pool := rfl
@[simp] theorem State.withEvents_symbols (u : EventUnit) : (s.withEvents u).symbols = s.symbols := rfl
@[simp] theorem State.withEvents_classes (u : EventUnit) : (s.withEvents u).classes = s.classes := rfl
@[simp] theorem State.withEvents_formatter (u : EventUnit) : (s.withEvents u).formatter = s.formatter := rfl
@[simp] theorem State.withEvents_texts (u : EventUnit) : (s.withEvents u).texts = s.texts := rfl
@[simp] theorem State.withEvents_faces (u : EventUnit) : (s.withEvents u).faces = s.faces := rfl
@[simp] theorem State.withEvents_compositor (u : EventUnit) : (s.withEvents u).compositor = s.compositor := rfl
@[simp] theorem State.withEvents_events (u : EventUnit) : (s.withEvents u).events = u := rfl
@[simp] theorem State.withEvents_pending (u : EventUnit) : (s.withEvents u).pending = s.pending := rfl
@[simp] theorem State.withEvents_lane (u : EventUnit) (j : LaneId) : (s.withEvents u).lane j = s.lane j := rfl

/-! ### Lanes -/

@[simp] theorem State.lane_setLane_same (i : LaneId) (l : Lane) : (s.setLane i l).lane i = l := by
  simp [State.lane]

theorem State.lane_setLane_ne {i j : LaneId} (h : i ≠ j) (l : Lane) : (s.setLane i l).lane j = s.lane j := by
  have : (i : Nat) ≠ j := fun e => h (Fin.ext e)
  simp [State.lane, this]

theorem State.lane_setLane (i j : LaneId) (l : Lane) :
    (s.setLane i l).lane j = if i = j then l else s.lane j := by
  by_cases h : i = j
  · subst h; simp
  · simp [h, s.lane_setLane_ne h]

theorem State.updLane_eq (i : LaneId) (f : Lane → Lane) : s.updLane i f = s.setLane i (f (s.lane i)) := rfl

@[simp] theorem State.lane_updLane_same (i : LaneId) (f : Lane → Lane) : (s.updLane i f).lane i = f (s.lane i) := by
  simp [State.updLane_eq]

theorem State.lane_updLane (i j : LaneId) (f : Lane → Lane) :
    (s.updLane i f).lane j = if i = j then f (s.lane i) else s.lane j := by
  simp [State.updLane_eq, State.lane_setLane]

@[simp] theorem State.setLane_setLane (i : LaneId) (l l' : Lane) : (s.setLane i l).setLane i l' = s.setLane i l' := by
  simp [State.setLane]

@[simp] theorem State.setLane_self (i : LaneId) : s.setLane i (s.lane i) = s := by
  simp [State.setLane, State.lane]

@[simp] theorem State.raise_item (f : Factor) (k : Nat) : (s.raise f).item? k = s.item? k := rfl
@[simp] theorem State.setLane_item (i : LaneId) (l : Lane) (k : Nat) : (s.setLane i l).item? k = s.item? k := rfl
@[simp] theorem State.updLane_item (i : LaneId) (f : Lane → Lane) (k : Nat) : (s.updLane i f).item? k = s.item? k := rfl
@[simp] theorem State.updSymbol_item (j : Nat) (f : SymbolRec → SymbolRec) (k : Nat) :
    (s.updSymbol j f).item? k = s.item? k := rfl
@[simp] theorem State.updText_item (j : Nat) (f : TextRec → TextRec) (k : Nat) : (s.updText j f).item? k = s.item? k := rfl
@[simp] theorem State.answered_item (k t r : Byte) (d : List Byte) (j : Nat) :
    (s.answered k t r d).item? j = s.item? j := rfl

end Sys2Proof.Machine
end

