-- ==== Sys2Proof/Laws/Tables.lean ====
section
/-! SUPPORT. What the sparse tables do: reading after a write, a removal and a change, the rising order they keep, and what
the lowest-numbered free places are. -/
namespace Sys2Proof.Machine

variable {α : Type} {t : Table α} {k j : Nat} {v : α}

/-! ### Order -/

theorem tableRising_nil : tableRising ([] : Table α) = true := by simp [tableRising]

theorem tableRising_cons {w : α} :
    tableRising ((k, w) :: t) = true ↔ (∀ p ∈ t, k < p.1) ∧ tableRising t = true := by
  simp [tableRising]

/-- A number below every number of a table is not in it. -/
theorem tableFind_of_below (h : ∀ p ∈ t, k < p.1) : tableFind t k = none := by
  induction t with
  | nil => rfl
  | cons p t ih =>
    obtain ⟨j, w⟩ := p
    have hj : k < j := h (j, w) (by simp)
    simp only [tableFind, if_neg (show ¬ j = k by omega)]
    exact ih fun p hp => h p (List.mem_cons_of_mem _ hp)

theorem mem_of_tableFind (h : tableFind t k = some v) : (k, v) ∈ t := by
  induction t with
  | nil => simp [tableFind] at h
  | cons p t ih =>
    obtain ⟨j, w⟩ := p
    simp only [tableFind] at h
    split at h
    · simp_all
    · exact List.mem_cons_of_mem _ (ih h)

/-- In a rising table, a number and its record stand in the list exactly when reading the number finds the record. -/
theorem tableFind_iff_mem (ht : tableRising t = true) : tableFind t k = some v ↔ (k, v) ∈ t := by
  refine ⟨mem_of_tableFind, fun h => ?_⟩
  induction t with
  | nil => simp at h
  | cons p t ih =>
    obtain ⟨j, w⟩ := p
    rw [tableRising_cons] at ht
    rcases List.mem_cons.mp h with h | h
    · obtain ⟨rfl, rfl⟩ := Prod.mk.inj h; simp [tableFind]
    · have := ht.1 _ h
      simp only [tableFind, if_neg (show ¬ j = k by simp at this; omega)]
      exact ih ht.2 h

/-! ### Change -/

/-- Reading after a change: the changed number's record is changed, every other is as before. -/
theorem tableFind_update (f : α → α) :
    tableFind (tableUpdate t k f) j = if j = k then (tableFind t k).map f else tableFind t j := by
  induction t with
  | nil => by_cases h : j = k <;> simp [tableUpdate, tableFind, h]
  | cons p t ih =>
    obtain ⟨i, w⟩ := p
    by_cases hik : i = k <;> by_cases hij : i = j <;> by_cases hjk : j = k <;>
      simp_all [tableUpdate, tableFind]

theorem tableUpdate_map_fst (f : α → α) : (tableUpdate t k f).map Prod.fst = t.map Prod.fst := by
  induction t with
  | nil => rfl
  | cons p t ih => obtain ⟨i, w⟩ := p; by_cases h : i = k <;> simp [tableUpdate, h, ih]

theorem tableRising_update (f : α → α) : tableRising (tableUpdate t k f) = tableRising t := by
  simp [tableRising, tableUpdate_map_fst]

/-- Two changes that agree on the record they meet are one change. -/
theorem tableUpdate_congr {f g : α → α} (h : ∀ w, tableFind t k = some w → f w = g w) :
    tableUpdate t k f = tableUpdate t k g := by
  induction t with
  | nil => rfl
  | cons p t ih =>
    obtain ⟨i, w⟩ := p
    by_cases hik : i = k
    · simp [tableUpdate, hik, h w (by simp [tableFind, hik])]
    · simp [tableUpdate, hik, ih fun w hw => h w (by simp [tableFind, hik, hw])]

/-- A change of a number that is not in the table changes nothing. -/
theorem tableUpdate_of_none {f : α → α} (h : tableFind t k = none) : tableUpdate t k f = t := by
  induction t with
  | nil => rfl
  | cons p t ih =>
    obtain ⟨i, w⟩ := p
    simp only [tableFind] at h
    split at h
    · simp at h
    · rename_i hik; simp [tableUpdate, hik, ih h]

/-! ### Write -/

theorem mem_tablePut {p : Nat × α} (h : p ∈ tablePut t k v) : p = (k, v) ∨ p ∈ t := by
  induction t with
  | nil => simp_all [tablePut]
  | cons q t ih =>
    obtain ⟨i, w⟩ := q
    simp only [tablePut] at h
    split at h
    · rcases List.mem_cons.mp h with h | h
      · exact .inl h
      · exact .inr (List.mem_cons_of_mem _ h)
    · split at h
      · rcases List.mem_cons.mp h with h | h
        · exact .inl h
        · exact .inr h
      · rcases List.mem_cons.mp h with h | h
        · exact .inr (by simp [h])
        · exact (ih h).imp_right (List.mem_cons_of_mem _)

theorem tableRising_put (ht : tableRising t = true) : tableRising (tablePut t k v) = true := by
  induction t with
  | nil => simp [tablePut, tableRising]
  | cons p t ih =>
    obtain ⟨i, w⟩ := p
    rw [tableRising_cons] at ht
    simp only [tablePut]
    split
    · subst i; exact tableRising_cons.mpr ht
    · split
      · refine tableRising_cons.mpr ⟨fun p hp => ?_, tableRising_cons.mpr ht⟩
        rcases List.mem_cons.mp hp with rfl | hp
        · assumption
        · have := ht.1 p hp; omega
      · refine tableRising_cons.mpr ⟨fun p hp => ?_, ih ht.2⟩
        rcases mem_tablePut hp with rfl | hp
        · simp only; omega
        · exact ht.1 p hp

/-- Reading after a write. -/
theorem tableFind_put (ht : tableRising t = true) :
    tableFind (tablePut t k v) j = if j = k then some v else tableFind t j := by
  induction t with
  | nil => by_cases h : k = j <;> simp [tablePut, tableFind, h, eq_comm]
  | cons p t ih =>
    obtain ⟨i, w⟩ := p
    rw [tableRising_cons] at ht
    simp only [tablePut]
    split
    · subst i; by_cases h : k = j <;> simp [tableFind, h, eq_comm]
    · split
      · by_cases h : k = j <;> simp [tableFind, h, eq_comm]
      · rename_i h1 h2
        by_cases hj : i = j
        · subst j; simp [tableFind, h1]
        · simp [tableFind, hj, ih ht.2]

/-! ### Removal -/

theorem mem_tableErase {p : Nat × α} (h : p ∈ tableErase t k) : p ∈ t := by
  induction t with
  | nil => simp_all [tableErase]
  | cons q t ih =>
    obtain ⟨i, w⟩ := q
    simp only [tableErase] at h
    split at h
    · exact List.mem_cons_of_mem _ h
    · rcases List.mem_cons.mp h with h | h
      · simp [h]
      · exact List.mem_cons_of_mem _ (ih h)

theorem tableRising_erase (ht : tableRising t = true) : tableRising (tableErase t k) = true := by
  induction t with
  | nil => simp [tableErase, tableRising]
  | cons p t ih =>
    obtain ⟨i, w⟩ := p
    rw [tableRising_cons] at ht
    simp only [tableErase]
    split
    · exact ht.2
    · exact tableRising_cons.mpr ⟨fun p hp => ht.1 p (mem_tableErase hp), ih ht.2⟩

/-- Reading after a removal. -/
theorem tableFind_erase (ht : tableRising t = true) :
    tableFind (tableErase t k) j = if j = k then none else tableFind t j := by
  induction t with
  | nil => simp [tableErase, tableFind]
  | cons p t ih =>
    obtain ⟨i, w⟩ := p
    rw [tableRising_cons] at ht
    simp only [tableErase]
    split
    · subst i
      by_cases h : j = k
      · subst j; simp [tableFind_of_below ht.1]
      · simp [tableFind, h, Ne.symm h]
    · by_cases h : i = j
      · subst j; simp_all [tableFind]
      · simp [tableFind, h, ih ht.2]

/-! ### Free places -/

theorem lowestFreeFrom_spec (ht : tableRising t = true) (hk : ∀ p ∈ t, k ≤ p.1) :
    k ≤ lowestFreeFrom k t ∧ tableFind t (lowestFreeFrom k t) = none ∧
      ∀ i, k ≤ i → i < lowestFreeFrom k t → tableFind t i ≠ none := by
  induction t generalizing k with
  | nil => exact ⟨Nat.le_refl _, rfl, fun i h1 h2 => absurd h2 (by simp [lowestFreeFrom]; omega)⟩
  | cons p t ih =>
    obtain ⟨j, w⟩ := p
    rw [tableRising_cons] at ht
    have hkj : k ≤ j := hk (j, w) (by simp)
    simp only [lowestFreeFrom]
    split
    · subst j
      obtain ⟨h1, h2, h3⟩ := ih ht.2 (k := k + 1) (fun p hp => ht.1 p hp)
      refine ⟨by omega, ?_, fun i hi hl => ?_⟩
      · simp only [tableFind, if_neg (show ¬ k = lowestFreeFrom (k + 1) t by omega)]; exact h2
      · by_cases hik : k = i
        · simp [tableFind, hik]
        · simp only [tableFind, if_neg hik]; exact h3 i (by omega) hl
    · refine ⟨Nat.le_refl _, ?_, fun i h1 h2 => by omega⟩
      rename_i hne
      refine tableFind_of_below fun p hp => ?_
      rcases List.mem_cons.mp hp with rfl | hp
      · simp only; omega
      · have := ht.1 p hp; omega

/-- The lowest-numbered free slot (R29, R78): free, within the limit, and no lower one is. -/
theorem lowestFree_eq_some {limit slot : Nat} (ht : tableRising t = true) :
    lowestFree t limit = some slot ↔
      slot < limit ∧ tableFind t slot = none ∧ ∀ i, i < slot → tableFind t i ≠ none := by
  obtain ⟨-, h2, h3⟩ := lowestFreeFrom_spec ht (k := 0) (fun _ _ => Nat.zero_le _)
  unfold lowestFree
  constructor
  · intro h
    split at h
    · cases h; exact ⟨by assumption, h2, fun i hi => h3 i (Nat.zero_le _) hi⟩
    · cases h
  · rintro ⟨hl, hf, hb⟩
    have : lowestFreeFrom 0 t = slot := by
      rcases Nat.lt_trichotomy (lowestFreeFrom 0 t) slot with h | h | h
      · exact absurd h2 (hb _ h)
      · exact h
      · exact absurd hf (h3 _ (Nat.zero_le _) h)
    simp [this, hl]

/-- No slot is free exactly when every slot within the limit is taken. -/
theorem lowestFree_eq_none {limit : Nat} (ht : tableRising t = true) :
    lowestFree t limit = none ↔ ∀ i, i < limit → tableFind t i ≠ none := by
  obtain ⟨-, h2, h3⟩ := lowestFreeFrom_spec ht (k := 0) (fun _ _ => Nat.zero_le _)
  unfold lowestFree
  constructor
  · intro h i hi
    split at h
    · cases h
    · exact h3 i (Nat.zero_le _) (by omega)
  · intro h
    split
    · rename_i hl; exact absurd h2 (h _ hl)
    · rfl

/-- The places taken from `at_` on are free, in range, ascending, and no free place below one of them is passed over. -/
theorem takeLowestFrom_spec (used : List Nat) (places at_ need : Nat) :
    let taken := takeLowestFrom used places at_ need
    taken.Pairwise (· < ·) ∧ taken.length ≤ need ∧
      (∀ i ∈ taken, at_ ≤ i ∧ i < at_ + places ∧ i ∉ used) ∧
      (∀ i ∈ taken, ∀ j, at_ ≤ j → j < i → j ∉ used → j ∈ taken) ∧
      (taken.length < need → ∀ j, at_ ≤ j → j < at_ + places → j ∉ used → j ∈ taken) := by
  induction places generalizing at_ need with
  | zero => simp [takeLowestFrom]; intro _ j h1 h2; omega
  | succ p ih =>
    simp only [takeLowestFrom]
    split
    · subst need; simp
    · split
      · rename_i hu
        obtain ⟨h1, h2, h3, h4, h5⟩ := ih (at_ + 1) need
        refine ⟨h1, h2, fun i hi => ?_, fun i hi j hj hji hf => ?_, fun hl j hj hjl hf => ?_⟩
        · have := h3 i hi; exact ⟨by omega, by omega, this.2.2⟩
        · have hne : j ≠ at_ := fun h => hf (h ▸ hu)
          exact h4 i hi j (by omega) hji hf
        · have hne : j ≠ at_ := fun h => hf (h ▸ hu)
          exact h5 hl j (by omega) (by omega) hf
      · rename_i hn hu
        obtain ⟨h1, h2, h3, h4, h5⟩ := ih (at_ + 1) (need - 1)
        refine ⟨?_, ?_, fun i hi => ?_, fun i hi j hj hji hf => ?_, fun hl j hj hjl hf => ?_⟩
        · exact List.pairwise_cons.mpr ⟨fun i hi => by have := h3 i hi; omega, h1⟩
        · simp only [List.length_cons]; omega
        · rcases List.mem_cons.mp hi with rfl | hi
          · exact ⟨by omega, by omega, hu⟩
          · have := h3 i hi; exact ⟨by omega, by omega, this.2.2⟩
        · by_cases hja : j = at_
          · simp [hja]
          · rcases List.mem_cons.mp hi with rfl | hi
            · omega
            · exact List.mem_cons_of_mem _ (h4 i hi j (by omega) hji hf)
        · by_cases hja : j = at_
          · simp [hja]
          · simp only [List.length_cons] at hl
            exact List.mem_cons_of_mem _ (h5 (by omega) j (by omega) (by omega) hf)

/-! ### Symbol codes -/

/-- A code looked up in a rising table names the slot that holds its record (R76). -/
theorem findCode_eq_some {t : Table SymbolRec} {c : SymCode} {slot : Nat} {r : SymbolRec} (ht : tableRising t = true)
    (h : findCode t c = some (slot, r)) : tableFind t slot = some r ∧ r.code = c := by
  induction t with
  | nil => simp [findCode] at h
  | cons p t ih =>
    obtain ⟨i, w⟩ := p
    rw [tableRising_cons] at ht
    simp only [findCode] at h
    split at h
    · simp only [Option.some.injEq, Prod.mk.injEq] at h; obtain ⟨rfl, rfl⟩ := h; exact ⟨by simp [tableFind], ‹_›⟩
    · obtain ⟨h1, h2⟩ := ih ht.2 h
      have := ht.1 _ (mem_of_tableFind h1)
      exact ⟨by simp only [tableFind, if_neg (show ¬ i = slot by simp at this; omega)]; exact h1, h2⟩

end Sys2Proof.Machine
end

