-- ==== Sys2Proof/Laws/Ops.lean ====
section
/-! SUPPORT. What the shared operations do, said once: reading records after an update, recording a factor, the target list,
offers and takes of the refresh queue, and what no work of a lane, of the Symbol Table or of the Formatter touches. -/
namespace Sys2Proof.Machine

variable {s t u : State}

/-! ### Reading records after an update -/

theorem State.item?_updItem (s : State) (k j : Nat) (f : Item → Item) :
    (s.updItem k f).item? j = if j = k then (s.item? k).map f else s.item? j := tableFind_update f

theorem State.symbol?_updSymbol (s : State) (k j : Nat) (f : SymbolRec → SymbolRec) :
    (s.updSymbol k f).symbol? j = if j = k then (s.symbol? k).map f else s.symbol? j := tableFind_update f

theorem State.text?_updText (s : State) (k j : Nat) (f : TextRec → TextRec) :
    (s.updText k f).text? j = if j = k then (s.text? k).map f else s.text? j := tableFind_update f

/-- Changes of an item that agree on the record it holds are one change. -/
theorem State.updItem_congr {k : Nat} {it : Item} {f g : Item → Item} (h : s.item? k = some it) (hfg : f it = g it) :
    s.updItem k f = s.updItem k g := by
  have : tableUpdate s.pool.items k f = tableUpdate s.pool.items k g :=
    tableUpdate_congr fun w hw => by
      have : some it = some w := h ▸ hw
      cases this; exact hfg
  simp [State.updItem, this]

/-! ### Factors -/

/-- A raised factor is added to its own group's pending set, when its group records it, and nothing else changes (R156). -/
theorem EventUnit.record_groups (e : EventUnit) (f : Factor) (g : GroupId) :
    (e.record f).groups[g] =
      if g = f.group then
        { e.groups[g] with pending := e.groups[g].pending ||| (f.bit &&& e.groups[g].records g) }
      else e.groups[g] := by
  by_cases h : g = f.group
  · subst h; simp [EventUnit.record]
  · have : f.group.val ≠ g.val := fun hv => h (Fin.ext hv.symm)
    simp [EventUnit.record, h, Vector.getElem_set_ne, this]

@[simp] theorem EventUnit.record_mask (e : EventUnit) (f : Factor) : (e.record f).mask = e.mask := rfl

theorem EventUnit.record_enable (e : EventUnit) (f : Factor) (g : GroupId) :
    (e.record f).groups[g].enable = e.groups[g].enable := by
  rw [EventUnit.record_groups]; split <;> rfl

theorem EventUnit.record_level (e : EventUnit) (f : Factor) (g : GroupId) :
    (e.record f).groups[g].level = e.groups[g].level := by
  rw [EventUnit.record_groups]; split <;> rfl

/-! ### Target lists -/

theorem mem_insertTarget {x a : Target} {ts : List Target} : x ∈ insertTarget a ts ↔ x = a ∨ x ∈ ts := by
  induction ts with
  | nil => simp [insertTarget]
  | cons b bs ih =>
    simp only [insertTarget]
    split
    · simp
    · simp [ih, or_left_comm]

/-- The target list stays in ascending order of travel (R3). -/
theorem insertTarget_pairwise {a : Target} {ts : List Target} (h : (ts.map Target.travel).Pairwise (· ≤ ·)) :
    ((insertTarget a ts).map Target.travel).Pairwise (· ≤ ·) := by
  induction ts with
  | nil => simp [insertTarget]
  | cons b bs ih =>
    simp only [List.map_cons, List.pairwise_cons] at h
    simp only [insertTarget]
    split
    · rename_i hlt
      simp only [List.map_cons, List.pairwise_cons, List.mem_cons, List.mem_map]
      refine ⟨fun x hx => ?_, fun x hx => ?_, h.2⟩
      · rcases hx with rfl | ⟨y, hy, rfl⟩
        · omega
        · have := h.1 _ (List.mem_map_of_mem hy); omega
      · obtain ⟨y, hy, rfl⟩ := hx
        exact h.1 _ (List.mem_map_of_mem hy)
    · simp only [List.map_cons, List.pairwise_cons]
      refine ⟨fun x hx => ?_, ih h.2⟩
      obtain ⟨y, hy, rfl⟩ := List.mem_map.mp hx
      rcases mem_insertTarget.mp hy with rfl | hy
      · omega
      · exact h.1 _ (List.mem_map_of_mem hy)

/-! ### The refresh queue -/

/-- The take (R108): nothing while a formatting is in flight or the queue is empty; the head leaves the queue otherwise. -/
theorem State.takeRefresh_cases (s : State) :
    ((s.formatter.inFlight ≠ none ∨ s.formatter.queue = []) ∧ s.takeRefresh = s) ∨
    ∃ slot rest x, s.formatter.inFlight = none ∧ s.formatter.queue = slot :: rest ∧
      s.takeRefresh = { s with formatter := { s.formatter with queue := rest, inFlight := x } } := by
  unfold State.takeRefresh
  cases hi : s.formatter.inFlight with
  | some f => exact .inl ⟨.inl (by simp), by simp⟩
  | none =>
    cases hq : s.formatter.queue with
    | nil => exact .inl ⟨.inr rfl, by simp⟩
    | cons slot rest =>
      refine .inr ⟨slot, rest, ?_⟩
      simp only
      split
      · split
        · exact ⟨_, trivial, trivial, rfl⟩
        · exact ⟨none, trivial, trivial, by simp [← hi]⟩
      · exact ⟨none, trivial, trivial, by simp [← hi]⟩

/-! ### What the work of lanes, symbols and the Formatter leaves alone -/

/-- What a lane's answer to a frame start, a start, a stop, an offer, a refresh, a staleness check and a freeze leave alone:
the RESET input, the link, the clock, the inputs, class records, templates, faces, the Compositor, the waiting commands, the codes and blocks
of texts, the codes and prices of symbols, enables, levels and mask; of each lane its set-up, and its Vc and A while no staged
record is there to load; and the travel of no lane falls. -/
structure LaneWork (s t : State) : Prop where
  inReset : t.inReset = s.inReset
  link : t.link = s.link
  clock : t.clock = s.clock
  gpi : t.gpi = s.gpi
  classes : t.classes = s.classes
  templates : t.formatter.templates = s.formatter.templates
  faces : t.faces = s.faces
  compositor : t.compositor = s.compositor
  pending : t.pending = s.pending
  texts : t.texts.map (fun (k, r) => (k, r.blocks, r.codes)) = s.texts.map (fun (k, r) => (k, r.blocks, r.codes))
  symbols : t.symbols.map (fun (k, r) => (k, r.code, r.price, r.reference, r.lastUpdate)) =
    s.symbols.map (fun (k, r) => (k, r.code, r.price, r.reference, r.lastUpdate))
  mask : t.events.mask = s.events.mask
  enables : ∀ g : GroupId, t.events.groups[g].enable = s.events.groups[g].enable ∧
    t.events.groups[g].level = s.events.groups[g].level
  timing : t.events.groups[(0 : GroupId)] = s.events.groups[(0 : GroupId)]
  output : t.events.groups[(1 : GroupId)] = s.events.groups[(1 : GroupId)]
  setup : ∀ i, (t.lane i).setup = (s.lane i).setup
  speed : ∀ i, (s.lane i).staged = none → (t.lane i).staged = none ∧ (t.lane i).cruise = (s.lane i).cruise ∧
    (t.lane i).accel = (s.lane i).accel
  travel : ∀ i, min (s.lane i).travel Config.maxTravel ≤ (t.lane i).travel

theorem LaneWork.refl (s : State) : LaneWork s s :=
  ⟨rfl, rfl, rfl, rfl, rfl, rfl, rfl, rfl, rfl, rfl, rfl, rfl, fun _ => ⟨rfl, rfl⟩, rfl, rfl, fun _ => rfl,
    fun _ h => ⟨h, rfl, rfl⟩, fun _ => Nat.min_le_left _ _⟩

theorem LaneWork.trans (a : LaneWork s t) (b : LaneWork t u) : LaneWork s u where
  inReset := b.inReset.trans a.inReset
  link := b.link.trans a.link
  clock := b.clock.trans a.clock
  gpi := b.gpi.trans a.gpi
  classes := b.classes.trans a.classes
  templates := b.templates.trans a.templates
  faces := b.faces.trans a.faces
  compositor := b.compositor.trans a.compositor
  pending := b.pending.trans a.pending
  texts := b.texts.trans a.texts
  symbols := b.symbols.trans a.symbols
  mask := b.mask.trans a.mask
  enables g := ⟨(b.enables g).1.trans (a.enables g).1, (b.enables g).2.trans (a.enables g).2⟩
  timing := b.timing.trans a.timing
  output := b.output.trans a.output
  setup i := (b.setup i).trans (a.setup i)
  speed i h := by
    obtain ⟨h1, h2, h3⟩ := a.speed i h
    obtain ⟨h4, h5, h6⟩ := b.speed i h1
    exact ⟨h4, h5.trans h2, h6.trans h3⟩
  travel i := by have := a.travel i; have := b.travel i; omega

/-- Work done once for each element of a list. -/
theorem LaneWork.foldl {α : Type} {f : State → α → State} (h : ∀ s a, LaneWork s (f s a)) (l : List α) (s : State) :
    LaneWork s (l.foldl f s) := by
  induction l generalizing s with
  | nil => exact .refl s
  | cons a l ih => exact (h s a).trans (ih (f s a))

/-- Work that changes items and generations alone, or the refresh queue and the formatting in flight. -/
theorem LaneWork.of_pool (s : State) (p : Pool) (q : List Nat) (x : Option Formatting) :
    LaneWork s { s with pool := p, formatter := { s.formatter with queue := q, inFlight := x } } :=
  ⟨rfl, rfl, rfl, rfl, rfl, rfl, rfl, rfl, rfl, rfl, rfl, rfl, fun _ => ⟨rfl, rfl⟩, rfl, rfl, fun _ => rfl,
    fun _ h => ⟨h, rfl, rfl⟩, fun _ => Nat.min_le_left _ _⟩

theorem LaneWork.updItem (s : State) (k : Nat) (f : Item → Item) : LaneWork s (s.updItem k f) :=
  .of_pool s _ _ _

/-- The groups of factors that lanes and the Symbol Table raise. -/
def Factor.inner (f : Factor) : Prop := f.group ≠ 0 ∧ f.group ≠ 1

theorem LaneWork.raise (s : State) {f : Factor} (h : f.inner) : LaneWork s (s.raise f) where
  inReset := rfl
  link := rfl
  clock := rfl
  gpi := rfl
  classes := rfl
  templates := rfl
  faces := rfl
  compositor := rfl
  pending := rfl
  texts := rfl
  symbols := rfl
  mask := rfl
  enables g := ⟨EventUnit.record_enable _ _ g, EventUnit.record_level _ _ g⟩
  timing := by simp only [State.raise_events]; rw [EventUnit.record_groups, if_neg (Ne.symm h.1)]
  output := by simp only [State.raise_events]; rw [EventUnit.record_groups, if_neg (Ne.symm h.2)]
  setup _ := rfl
  speed _ h := ⟨h, rfl, rfl⟩
  travel _ := Nat.min_le_left _ _

theorem laneGroup_inner (i : LaneId) : laneGroup i ≠ 0 ∧ laneGroup i ≠ 1 := by
  constructor <;> (intro h; have := congrArg Fin.val h; simp [laneGroup] at this)

theorem LaneWork.andRaise {f : Factor} (h : LaneWork s t) (hf : f.group ≠ 0 ∧ f.group ≠ 1) : LaneWork s (t.raise f) :=
  h.trans (.raise t hf)

/-- A lane changed in anything but its set-up, with its Vc, A and staged record kept and its travel not lowered. -/
theorem LaneWork.setLane {i : LaneId} {l : Lane} (hs : l.setup = (s.lane i).setup) (hc : l.cruise = (s.lane i).cruise)
    (ha : l.accel = (s.lane i).accel) (hst : l.staged = (s.lane i).staged)
    (ht : min (s.lane i).travel Config.maxTravel ≤ l.travel) : LaneWork s (s.setLane i l) where
  inReset := rfl
  link := rfl
  clock := rfl
  gpi := rfl
  classes := rfl
  templates := rfl
  faces := rfl
  compositor := rfl
  pending := rfl
  texts := rfl
  symbols := rfl
  mask := rfl
  enables _ := ⟨rfl, rfl⟩
  timing := rfl
  output := rfl
  setup j := by rw [State.lane_setLane]; split <;> simp_all
  speed j h := by rw [State.lane_setLane]; split <;> simp_all
  travel j := by
    rw [State.lane_setLane]
    split
    · subst j; exact ht
    · exact Nat.min_le_left _ _

theorem LaneWork.setLane_raise {i : LaneId} {l : Lane} {f : Factor} (hf : f.group ≠ 0 ∧ f.group ≠ 1)
    (hs : l.setup = (s.lane i).setup) (hc : l.cruise = (s.lane i).cruise) (ha : l.accel = (s.lane i).accel)
    (hst : l.staged = (s.lane i).staged) (ht : min (s.lane i).travel Config.maxTravel ≤ l.travel) :
    LaneWork s ((s.setLane i l).raise f) := (LaneWork.setLane hs hc ha hst ht).trans (.raise _ hf)

theorem LaneWork.andSetLane {i : LaneId} {l : Lane} (h : LaneWork s t) (hs : l.setup = (t.lane i).setup)
    (hc : l.cruise = (t.lane i).cruise) (ha : l.accel = (t.lane i).accel) (hst : l.staged = (t.lane i).staged)
    (ht : min (t.lane i).travel Config.maxTravel ≤ l.travel) : LaneWork s (t.setLane i l) :=
  h.trans (.setLane hs hc ha hst ht)

theorem LaneWork.updLane {i : LaneId} {f : Lane → Lane} (hs : (f (s.lane i)).setup = (s.lane i).setup)
    (hc : (f (s.lane i)).cruise = (s.lane i).cruise) (ha : (f (s.lane i)).accel = (s.lane i).accel)
    (hst : (f (s.lane i)).staged = (s.lane i).staged) (ht : (f (s.lane i)).travel = (s.lane i).travel) :
    LaneWork s (s.updLane i f) := .setLane hs hc ha hst (by rw [ht]; exact Nat.min_le_left _ _)

theorem map_tableUpdate {α β : Type} {t : Table α} {k : Nat} {f : α → α} {g : Nat × α → β}
    (h : ∀ j a, g (j, f a) = g (j, a)) : (tableUpdate t k f).map g = t.map g := by
  induction t with
  | nil => rfl
  | cons p t ih => obtain ⟨j, w⟩ := p; by_cases hj : j = k <;> simp [tableUpdate, hj, ih, h]

/-- A symbol changed in its count, its view list or its stale flag. -/
theorem LaneWork.updSymbol (s : State) (k : Nat) {f : SymbolRec → SymbolRec}
    (h : ∀ r, (f r).code = r.code ∧ (f r).price = r.price ∧ (f r).reference = r.reference ∧
      (f r).lastUpdate = r.lastUpdate) : LaneWork s (s.updSymbol k f) where
  inReset := rfl
  link := rfl
  clock := rfl
  gpi := rfl
  classes := rfl
  templates := rfl
  faces := rfl
  compositor := rfl
  pending := rfl
  texts := rfl
  symbols := map_tableUpdate fun j r => by simp [h r]
  mask := rfl
  enables _ := ⟨rfl, rfl⟩
  timing := rfl
  output := rfl
  setup _ := rfl
  speed _ h := ⟨h, rfl, rfl⟩
  travel _ := Nat.min_le_left _ _

/-- A text changed in its counts. -/
theorem LaneWork.updText (s : State) (k : Nat) {f : TextRec → TextRec}
    (h : ∀ r, (f r).blocks = r.blocks ∧ (f r).codes = r.codes) : LaneWork s (s.updText k f) where
  inReset := rfl
  link := rfl
  clock := rfl
  gpi := rfl
  classes := rfl
  templates := rfl
  faces := rfl
  compositor := rfl
  pending := rfl
  texts := map_tableUpdate fun j r => by simp [h r]
  symbols := rfl
  mask := rfl
  enables _ := ⟨rfl, rfl⟩
  timing := rfl
  output := rfl
  setup _ := rfl
  speed _ h := ⟨h, rfl, rfl⟩
  travel _ := Nat.min_le_left _ _

theorem LaneWork.addReference (s : State) (c : Content) : LaneWork s (s.addReference c) := by
  cases c
  · exact .updSymbol _ _ fun _ => ⟨rfl, rfl, rfl, rfl⟩
  · exact .updText _ _ fun _ => ⟨rfl, rfl⟩
  · exact .refl s

theorem LaneWork.dropReference (s : State) (c : Content) : LaneWork s (s.dropReference c) := by
  cases c
  · exact .updSymbol _ _ fun _ => ⟨rfl, rfl, rfl, rfl⟩
  · exact .updText _ _ fun _ => ⟨rfl, rfl⟩
  · exact .refl s

theorem LaneWork.joinView (s : State) (k : Nat) (c : Content) : LaneWork s (s.joinView k c) := by
  cases c
  · exact .updSymbol _ _ fun _ => ⟨rfl, rfl, rfl, rfl⟩
  · exact .updText _ _ fun _ => ⟨rfl, rfl⟩
  · exact .refl s

theorem LaneWork.leaveView (s : State) (k : Nat) (c : Content) : LaneWork s (s.leaveView k c) := by
  cases c
  · exact (LaneWork.updSymbol s _ (f := fun r => { r with viewList := r.viewList.erase k })
      fun _ => ⟨rfl, rfl, rfl, rfl⟩).trans (.of_pool _ _ _ _)
  · exact .updText _ _ fun _ => ⟨rfl, rfl⟩
  · exact .refl s

theorem LaneWork.takeRefresh (s : State) : LaneWork s s.takeRefresh := by
  rcases s.takeRefresh_cases with ⟨-, h⟩ | ⟨slot, rest, x, -, -, h⟩
  · rw [h]; exact .refl s
  · rw [h]; exact .of_pool s s.pool rest x

theorem LaneWork.offer (s : State) (k : Nat) : LaneWork s (s.offer k) := by
  unfold State.offer
  split
  · exact .refl s
  · split
    · split
      · exact ((LaneWork.updItem s k _).trans (.raise _ (by exact laneGroup_inner _))).trans
          (.of_pool _ _ _ _)
      · exact .refl s
    · exact (LaneWork.of_pool s s.pool (s.formatter.queue ++ [k]) s.formatter.inFlight).trans (.takeRefresh _)

theorem LaneWork.offerView (s : State) (k : Nat) : LaneWork s (s.offerView k) := by
  unfold State.offerView
  split
  · exact .foldl LaneWork.offer _ s
  · exact .refl s

theorem LaneWork.freeItem (s : State) (k : Nat) : LaneWork s (s.freeItem k) := by
  unfold State.freeItem
  split
  · exact .refl s
  · rename_i it _
    have h1 : LaneWork s (if it.isVisible then s.leaveView k it.content else s) := by
      split
      · exact .leaveView s k _
      · exact .refl s
    refine ((h1.trans (.updLane (i := it.lane) (f := Lane.dropItem k) rfl rfl rfl rfl rfl)).trans
      (.dropReference _ it.content)).trans ?_
    exact .of_pool _ _ _ _

theorem LaneWork.freeItems (s : State) (ks : List Nat) : LaneWork s (s.freeItems ks) := .foldl LaneWork.freeItem _ s

theorem LaneWork.disposeItem (s : State) (i : LaneId) (k n : Nat) : LaneWork s (s.disposeItem i k n) := by
  unfold State.disposeItem
  split
  · exact (LaneWork.freeItem s k).trans (.raise _ (by exact laneGroup_inner i))
  · exact (LaneWork.updItem s k _).trans (.updLane rfl rfl rfl rfl rfl)

/-! ### Starts, stops and comings to rest -/

theorem LaneWork.startFrom (s : State) (i : LaneId) (r : ReturnState) : LaneWork s (s.startFrom i r) := by
  unfold State.startFrom
  simp only
  split <;> exact .setLane_raise (laneGroup_inner i) rfl rfl rfl rfl (Nat.min_le_left _ _)

theorem LaneWork.startArmed (s : State) (i : LaneId) : LaneWork s (s.startArmed i) := by
  unfold State.startArmed
  split
  · split
    · exact .startFrom s i _
    · exact .refl s
  · exact .refl s

theorem LaneWork.meetCondition (late : LaneSet) (s : State) (i : LaneId) : LaneWork s (s.meetCondition late i) := by
  unfold State.meetCondition
  split
  · exact .updLane rfl rfl rfl rfl rfl
  · exact .startArmed s i

theorem LaneWork.comesToRest (s : State) (late : LaneSet) (j : LaneId) : LaneWork s (s.comesToRest late j) :=
  .foldl (LaneWork.meetCondition late) _ s

theorem LaneWork.andRest {late : LaneSet} {j : LaneId} (h : LaneWork s t) : LaneWork s (t.comesToRest late j) :=
  h.trans (.comesToRest t late j)

theorem LaneWork.pulses (s : State) (mask : LaneSet) : LaneWork s (s.pulses mask) :=
  .foldl (fun s i => by
    unfold State.pulse
    split
    · exact .startArmed s i
    · exact .refl s) _ s

theorem LaneWork.stopNow (s : State) (late : LaneSet) (i : LaneId) : LaneWork s (s.stopNow late i) := by
  unfold State.stopNow
  have h : LaneWork s ((s.setLane i { s.lane i with
      state := .stopped, velocity := 0, brake := none, dwell := 0, clearing := false }).raise (.stopped i)) :=
    .setLane_raise (laneGroup_inner i) rfl rfl rfl rfl (Nat.min_le_left _ _)
  simp only
  split
  · exact h.trans (.comesToRest _ late i)
  · exact h

theorem LaneWork.endHold (s : State) (i : LaneId) : LaneWork s (s.endHold i) :=
  (LaneWork.updLane rfl rfl rfl rfl rfl).trans (.raise _ (by exact laneGroup_inner i))

/-- A stop, when it has an effect, is work of lanes (R20). -/
theorem LaneWork.applyStop {late : LaneSet} {i : LaneId} {m : StopMode} (h : s.applyStop late i m = some t) :
    LaneWork s t := by
  unfold State.applyStop at h
  simp only at h
  split at h
  · cases h
  · cases h
  · cases h
  · cases h
  · cases m <;> simp only [Option.some.injEq, reduceCtorEq] at h
    subst h
    exact .updLane (by unfold Lane.cancelArm; split <;> rfl) (by unfold Lane.cancelArm; split <;> rfl)
      (by unfold Lane.cancelArm; split <;> rfl) (by unfold Lane.cancelArm; split <;> rfl)
      (by unfold Lane.cancelArm; split <;> rfl)
  all_goals cases m <;> simp only at h
  all_goals first
    | (cases h; exact .stopNow s late i)
    | (cases h
       exact .setLane_raise (laneGroup_inner i) rfl rfl rfl rfl (Nat.min_le_left _ _))
    | (split at h
       · cases h
       · cases h; exact .setLane (by rfl) (by rfl) (by rfl) (by rfl) (Nat.min_le_left _ _))

end Sys2Proof.Machine
end

