-- ==== Sys2Proof/Laws/Frame.lean ====
section
/-! SUPPORT. What a step of motion keeps of its lane, and that every act of a frame start is work of lanes, symbols and the
Formatter alone. -/
namespace Sys2Proof.Machine

variable {s t : State}

/-! ### The step of a moving advance -/

/-- What a step leaves alone in its lane (R6 to R10): all but state, travel, velocity and brake kind. -/
theorem stepLane_keeps (l : Lane) :
    ∃ st tr v b, (stepLane l).lane = { l with state := st, travel := tr, velocity := v, brake := b } ∧
      min l.travel Config.maxTravel ≤ tr := by
  have after : ∀ n : Nat, min l.travel Config.maxTravel ≤ travelAfter l.travel n := by
    intro n; simp only [travelAfter]; omega
  unfold stepLane
  split
  · unfold rampStep
    simp only
    split
    · exact ⟨_, _, _, _, rfl, Nat.min_le_left _ _⟩
    · split
      · exact ⟨_, _, _, _, rfl, after _⟩
      · exact ⟨_, _, _, _, rfl, after _⟩
  · split
    · exact ⟨_, _, _, _, rfl, after _⟩
    · split
      · exact ⟨_, _, _, _, rfl, after _⟩
      · unfold targetStep
        simp only
        split
        · exact ⟨_, _, _, _, rfl, after _⟩
        · exact ⟨_, _, _, _, rfl, after _⟩

theorem disarmCues_keeps (ks : List CueId) (l : Lane) :
    ∃ cs, ks.foldl Lane.disarmCue l = { l with cues := cs } := by
  induction ks generalizing l with
  | nil => exact ⟨l.cues, rfl⟩
  | cons k ks ih =>
    obtain ⟨cs, h⟩ := ih (l.disarmCue k)
    exact ⟨cs, by simp only [List.foldl_cons]; rw [h]; rfl⟩

/-- What a landing leaves alone in its lane (R11): all but state, velocity, brake kind, dwell, targets and cues. -/
theorem Lane.land_keeps (l : Lane) (ramp : Bool) :
    ∃ st v b d ts cs, l.land ramp =
      { l with state := st, velocity := v, brake := b, dwell := d, targets := ts, cues := cs } := by
  obtain ⟨cs, h⟩ := disarmCues_keeps (stopCues l.landed) l
  unfold Lane.land
  simp only
  rw [h]
  exact ⟨_, _, _, _, _, cs, rfl⟩

/-! ### The parts of an advance -/

theorem LaneWork.raises {α : Type} (f : α → Factor) (h : ∀ a, (f a).inner) (l : List α) (s : State) :
    LaneWork s (l.foldl (fun s a => s.raise (f a)) s) := .foldl (fun s a => .raise s (h a)) l s

theorem LaneWork.landOn (s : State) (i : LaneId) (r : StepResult) (hr : (r.lane).setup = (s.lane i).setup)
    (hc : r.lane.cruise = (s.lane i).cruise) (ha : r.lane.accel = (s.lane i).accel)
    (hst : r.lane.staged = (s.lane i).staged) (ht : min (s.lane i).travel Config.maxTravel ≤ r.lane.travel) :
    LaneWork s (s.landOn i r) := by
  obtain ⟨st, v, b, d, ts, cs, h⟩ := r.lane.land_keeps r.ramp
  unfold State.landOn
  simp only
  have h1 : LaneWork s (s.setLane i (r.lane.land r.ramp)) := by
    rw [h]; exact .setLane hr hc ha hst ht
  refine LaneWork.trans ?_ (.foldl (fun s k => .pulses s _) _ _)
  refine LaneWork.trans ?_ (.comesToRest _ 0 i)
  have h2 := (h1.trans (.raises (fun _ : Nat => Factor.holdReached i) (fun _ => laneGroup_inner i)
    (holdDwells r.lane.landed) _)).trans (.raises (fun k => Factor.cue i k) (fun _ => laneGroup_inner i)
    (stopCues r.lane.landed) _)
  split
  · split
    · exact .andRaise (.andRaise h2 (laneGroup_inner i)) (laneGroup_inner i)
    · exact .andRaise h2 (laneGroup_inner i)
  · split
    · exact .andRaise h2 (laneGroup_inner i)
    · exact h2

theorem LaneWork.stepPart (s : State) (i : LaneId) : LaneWork s (s.stepPart i) := by
  obtain ⟨st, tr, v, b, h, ht⟩ := stepLane_keeps (s.lane i)
  unfold State.stepPart
  simp only
  split
  · exact .landOn s i _ (by rw [h]) (by rw [h]) (by rw [h]) (by rw [h]) (by rw [h]; exact ht)
  · have h1 : LaneWork s (s.setLane i (stepLane (s.lane i)).lane) := by rw [h]; exact .setLane rfl rfl rfl rfl ht
    split
    · exact .andRest (.andRaise h1 (laneGroup_inner i))
    · exact h1

theorem LaneWork.retire (s : State) (i : LaneId) (k : Nat) (it : Item) : LaneWork s (s.retire i k it) := by
  unfold State.retire
  exact (((LaneWork.leaveView s k _).trans (.updItem _ k _)).trans (.updLane rfl rfl rfl rfl rfl)).trans
    (.disposeItem _ i k _)

theorem LaneWork.retireFrom (i : LaneId) (ks : List Nat) (s : State) : LaneWork s (s.retireFrom i ks) := by
  induction ks generalizing s with
  | nil => exact .refl s
  | cons k ks ih =>
    unfold State.retireFrom
    split
    · split
      · split
        · exact (LaneWork.retire s i k _).trans (ih _)
        · exact .refl s
      · exact .refl s
    · exact .refl s

theorem LaneWork.clearPart (s : State) (i : LaneId) : LaneWork s (s.clearPart i) := by
  unfold State.clearPart
  simp only
  split
  · exact .andRest (.andRaise (.setLane_raise (laneGroup_inner i) rfl rfl rfl rfl (Nat.min_le_left _ _))
      (laneGroup_inner i))
  · exact .refl s

theorem LaneWork.enterItem (s : State) (i : LaneId) (n k : Nat) (it : Item) : LaneWork s (s.enterItem i n k it) := by
  unfold State.enterItem
  simp only
  refine LaneWork.trans ?_ (.joinView _ k _)
  exact .andRaise (.andSetLane (.updItem s k _) rfl rfl rfl rfl (Nat.min_le_left _ _)) (laneGroup_inner i)

theorem LaneWork.skipItem (s : State) (i : LaneId) (k : Nat) (it : Item) : LaneWork s (s.skipItem i k it) := by
  unfold State.skipItem
  exact (LaneWork.updLane rfl rfl rfl rfl rfl).trans (.disposeItem _ i k _)

theorem LaneWork.enterItems (i : LaneId) (n fuel : Nat) (r : EntryRun) :
    LaneWork r.state (enterItems i n fuel r).state := by
  induction fuel generalizing r with
  | zero => exact .refl _
  | succ fuel ih =>
    unfold Machine.enterItems
    split
    · exact .refl _
    · split
      · exact .refl _
      · split
        · exact .refl _
        · split
          · simp only
            split
            · refine LaneWork.trans (LaneWork.trans ?_ (.skipItem _ i _ _)) (ih ⟨_, _, _⟩)
              exact .andRaise (.refl _) (laneGroup_inner i)
            · refine LaneWork.trans (LaneWork.trans ?_ (.enterItem _ i _ _ _)) (ih ⟨_, _, _⟩)
              exact .andRaise (.refl _) (laneGroup_inner i)
          · exact (LaneWork.enterItem _ i _ _ _).trans (ih ⟨_, _, _⟩)

theorem LaneWork.drainPart (s : State) (i : LaneId) : LaneWork s (s.drainPart i) := by
  unfold State.drainPart
  simp only
  split
  · exact .andRest (.andRaise (.setLane_raise (laneGroup_inner i) rfl rfl rfl rfl (Nat.min_le_left _ _))
      (laneGroup_inner i))
  · exact .refl s

theorem LaneWork.matchCue (s : State) (i : LaneId) (k : CueId) : LaneWork s (s.matchCue i k) := by
  unfold State.matchCue
  simp only
  refine LaneWork.trans ?_ (.pulses _ _)
  refine LaneWork.andRaise ?_ (laneGroup_inner i)
  split
  · exact .refl s
  · exact .updLane rfl rfl rfl rfl rfl

/-- LOAD_STAGED changes Vc and A only when a staged record is there (R60). -/
theorem LaneWork.loadStaged (s : State) (i : LaneId) : LaneWork s (s.updLane i Lane.loadStaged) where
  inReset := rfl
  link := rfl
  clock := rfl
  gpi := rfl
  classes := rfl
  templates := rfl
  faces := rfl
  compositor := rfl
  pending := rfl
  texts := rfl
  symbols := rfl
  mask := rfl
  enables _ := ⟨rfl, rfl⟩
  timing := rfl
  output := rfl
  setup j := by
    rw [State.lane_updLane]
    split
    · subst j; unfold Lane.loadStaged; split <;> rfl
    · rfl
  speed j h := by
    rw [State.lane_updLane]
    split
    · subst j; unfold Lane.loadStaged; rw [h]; exact ⟨h, rfl, rfl⟩
    · exact ⟨h, rfl, rfl⟩
  travel j := by
    rw [State.lane_updLane]
    split
    · subst j; unfold Lane.loadStaged; split <;> exact Nat.min_le_left _ _
    · exact Nat.min_le_left _ _

theorem LaneWork.cueActions (s : State) (i : LaneId) (as : List CueAction) : LaneWork s (s.cueActions i as) := by
  have stop : ∀ (u : State) (m : StopMode), LaneWork u ((u.applyStop 0 i m).getD u) := by
    intro u m
    cases h : u.applyStop 0 i m with
    | none => exact .refl u
    | some v => exact .applyStop h
  have acts : ∀ u : State, LaneWork u (if .stopNow ∈ as then (u.applyStop 0 i .now).getD u
      else if .stopRamp ∈ as then (u.applyStop 0 i .ramp).getD u else u) := by
    intro u
    split
    · exact stop u .now
    · split
      · exact stop u .ramp
      · exact .refl u
  refine LaneWork.trans ?_ (acts _)
  split
  · exact .loadStaged s i
  · exact .refl s

theorem LaneWork.cuePart (s : State) (i : LaneId) (v : CueView) : LaneWork s (s.cuePart i v) := by
  unfold State.cuePart
  exact (LaneWork.foldl (fun s k => .matchCue s i k) _ s).trans (.cueActions _ i _)

/-! ### The answers to a frame start -/

theorem LaneWork.retirePart (s : State) (i : LaneId) : LaneWork s (s.retirePart i) := .retireFrom i _ s

theorem LaneWork.entryPart (s : State) (i : LaneId) (n : Nat) : LaneWork s (s.entryPart i n).state :=
  .enterItems i n _ { state := s, entered := [], passed := [] }

/-- A moving advance (R5). -/
theorem LaneWork.advance (s : State) (i : LaneId) : LaneWork s (s.advance i) := by
  have h := ((((LaneWork.stepPart s i).trans (.retirePart _ i)).trans (.clearPart _ i)).trans
    (.entryPart _ i (s.lane i).travel)).trans (.drainPart _ i)
  have count : ∀ u : State, LaneWork u (u.updLane i fun l => { l with runFrames := l.runFrames + 1 }) :=
    fun u => .updLane rfl rfl rfl rfl rfl
  exact (h.trans (.cuePart _ i _)).trans (count _)

theorem LaneWork.flashPart (s : State) (i : LaneId) : LaneWork s (s.flashPart i) := .foldl (fun s _ => .updItem s _ _) _ s

/-- A lane's answer to a frame start (R5). -/
theorem LaneWork.answerFrame (s : State) (i : LaneId) : LaneWork s (s.answerFrame i) := by
  unfold State.answerFrame
  split
  · exact .refl s
  · exact .refl s
  · exact .refl s
  · simp only
    split
    · split
      · exact (LaneWork.flashPart s i).trans (.startArmed _ i)
      · exact .flashPart s i
    · split
      · exact .startArmed s i
      · exact .refl s
  · exact (LaneWork.flashPart s i).trans (.advance _ i)
  · exact (LaneWork.flashPart s i).trans (.advance _ i)
  · refine (LaneWork.flashPart s i).trans ?_
    unfold State.countDwell
    split
    · exact .endHold _ i
    · exact .updLane rfl rfl rfl rfl rfl
  · exact .flashPart s i

/-- The staleness check of one symbol (R86). -/
theorem LaneWork.checkSymbol (s : State) (k : Nat) : LaneWork s (s.checkSymbol k) := by
  unfold State.checkSymbol
  split
  · split
    · exact .andRaise (.trans (.updSymbol s k (f := fun r => { r with stale := true }) fun _ => ⟨rfl, rfl, rfl, rfl⟩)
        (.offerView _ k)) ⟨by decide, by decide⟩
    · exact .refl s
  · exact .refl s

/-- A freeze that reaches a lane (R147). -/
theorem LaneWork.freezeLane (s : State) (i : LaneId) : LaneWork s (s.freezeLane i) := by
  unfold State.freezeLane
  simp only
  split <;> first
    | exact .refl s
    | exact .setLane_raise (laneGroup_inner i) rfl rfl rfl rfl (Nat.min_le_left _ _)

/-- Every act of a frame start (R130). -/
theorem LaneWork.frameAct (freezing : Bool) (s : State) (a : FrameAct) : LaneWork s (s.frameAct freezing a) := by
  cases a
  · exact .answerFrame s _
  · exact .foldl LaneWork.checkSymbol _ s
  · unfold State.frameAct
    simp only
    split
    · exact .freezeLane s _
    · exact .refl s

end Sys2Proof.Machine
end

