-- ==== Sys2Proof/Laws/Lanes.lean ====
section
/-! SUPPORT. Starts of ARMED lanes, said once: what a start gives its lane and raises, that it touches no other lane, and what
a cause that reaches several lanes one after another (a coming to rest, a sync pulse) does to each of them. -/
namespace Sys2Proof.Machine

variable {s t u : State} {k : LaneId}

theorem laneGroup_ne {i j : LaneId} (h : i ≠ j) : laneGroup i ≠ laneGroup j := fun e =>
  h (Fin.ext (by simpa [laneGroup] using congrArg Fin.val e))

theorem mem_allLanes (k : LaneId) : k ∈ allLanes := by revert k; decide

/-! ### Work on one lane alone -/

/-- t is s with lane k and the factors of its group changed, and nothing else. -/
structure LaneAlone (k : LaneId) (s t : State) : Prop where
  rest : t = { s with lanes := t.lanes, events := t.events }
  lanes : ∀ j, j ≠ k → t.lane j = s.lane j
  groups : ∀ g, g ≠ laneGroup k → t.events.groups[g] = s.events.groups[g]
  mask : t.events.mask = s.events.mask

theorem LaneAlone.refl (k : LaneId) (s : State) : LaneAlone k s s := ⟨rfl, fun _ _ => rfl, fun _ _ => rfl, rfl⟩

theorem LaneAlone.trans (a : LaneAlone k s t) (b : LaneAlone k t u) : LaneAlone k s u :=
  ⟨by rw [b.rest, a.rest], fun j h => (b.lanes j h).trans (a.lanes j h), fun g h => (b.groups g h).trans (a.groups g h),
    b.mask.trans a.mask⟩

theorem LaneAlone.setLane (k : LaneId) (s : State) (l : Lane) : LaneAlone k s (s.setLane k l) :=
  ⟨rfl, fun _ h => s.lane_setLane_ne (Ne.symm h) l, fun _ _ => rfl, rfl⟩

theorem LaneAlone.raise (s : State) {f : Factor} (h : f.group = laneGroup k) : LaneAlone k s (s.raise f) :=
  ⟨rfl, fun _ _ => rfl, fun g hg => by simp only [State.raise_events, EventUnit.record_groups, h, if_neg hg], rfl⟩

/-- What a factor leaves in a group depends on that group alone. -/
theorem State.raise_group {g : GroupId} (f : Factor) (h : s.events.groups[g] = t.events.groups[g]) :
    (s.raise f).events.groups[g] = (t.raise f).events.groups[g] := by
  simp only [State.raise_events, EventUnit.record_groups, h]

/-! ### Starts (R18, R19, R74) -/

/-- The lane a start from a return state leaves. -/
def Lane.begun (l : Lane) (r : ReturnState) : Lane :=
  if l.visible = [] ∧ l.queued = [] ∧ l.setup.onEmpty = .stop then
    { l with state := if r = .idle then .idle else .stopped, clearing := false, arm := none }
  else
    { l with state := .run, velocity := 0, clearing := false, arm := none
             nextEntry := if r = .idle then l.travel else l.nextEntry }

/-- The factor a start raises. -/
def Lane.startFactor (l : Lane) (k : LaneId) : Factor :=
  if l.visible = [] ∧ l.queued = [] ∧ l.setup.onEmpty = .stop then .drained k else .started k

@[simp] theorem Lane.startFactor_group (l : Lane) (k : LaneId) : (l.startFactor k).group = laneGroup k := by
  unfold Lane.startFactor; split <;> rfl

@[simp] theorem Lane.begun_arm (l : Lane) (r : ReturnState) : (l.begun r).arm = none := by
  unfold Lane.begun; split <;> rfl

theorem State.startFrom_eq (s : State) (k : LaneId) (r : ReturnState) :
    s.startFrom k r = (s.setLane k ((s.lane k).begun r)).raise ((s.lane k).startFactor k) := by
  unfold State.startFrom Lane.begun Lane.startFactor Lane.isEmpty
  by_cases h : (s.lane k).visible = [] ∧ (s.lane k).queued = [] ∧ (s.lane k).setup.onEmpty = .stop
  · obtain ⟨h1, h2, h3⟩ := h
    simp [h1, h2, h3]; cases r <;> rfl
  · have : ¬ ((s.lane k).visible.isEmpty && (s.lane k).queued.isEmpty &&
        decide ((s.lane k).setup.onEmpty = .stop)) = true := by simpa [List.isEmpty_iff, and_assoc] using h
    simp only [this, h, if_false]; rfl

theorem State.startArmed_eq {a : Arm} (h : (s.lane k).state = .armed) (ha : (s.lane k).arm = some a) :
    s.startArmed k = (s.setLane k ((s.lane k).begun a.returns)).raise ((s.lane k).startFactor k) := by
  simp [State.startArmed, ha, h, State.startFrom_eq]

theorem LaneAlone.startArmed (s : State) (k : LaneId) : LaneAlone k s (s.startArmed k) := by
  unfold State.startArmed
  split
  · split
    · rw [State.startFrom_eq]
      exact (LaneAlone.setLane k s _).trans (.raise _ (Lane.startFactor_group _ _))
    · exact .refl _ _
  · exact .refl _ _

theorem LaneAlone.meetCondition (late : LaneSet) (s : State) (k : LaneId) : LaneAlone k s (s.meetCondition late k) := by
  unfold State.meetCondition
  split
  · exact .setLane _ _ _
  · exact .startArmed _ _

theorem LaneAlone.pulse (s : State) (k : LaneId) : LaneAlone k s (s.pulse k) := by
  unfold State.pulse
  split
  · exact .startArmed _ _
  · exact .refl _ _

/-! ### Causes that reach several lanes -/

/-- States that agree on a lane and its group still agree on them after f has acted on that lane. -/
def LaneLocal (f : State → LaneId → State) : Prop :=
  ∀ (s t : State) (k : LaneId), s.lane k = t.lane k → s.events.groups[laneGroup k] = t.events.groups[laneGroup k] →
    (f s k).lane k = (f t k).lane k ∧ (f s k).events.groups[laneGroup k] = (f t k).events.groups[laneGroup k]

theorem startArmed_local : LaneLocal State.startArmed := by
  intro s t k h hg
  unfold State.startArmed
  rw [h]
  split
  · split
    · rw [State.startFrom_eq, State.startFrom_eq, h]
      exact ⟨by simp, State.raise_group _ hg⟩
    · exact ⟨h, hg⟩
  · exact ⟨h, hg⟩

theorem meetCondition_local (late : LaneSet) : LaneLocal (State.meetCondition late) := by
  intro s t k h hg
  unfold State.meetCondition
  split
  · exact ⟨by simp [h], hg⟩
  · exact startArmed_local s t k h hg

theorem pulse_local : LaneLocal State.pulse := by
  intro s t k h hg
  unfold State.pulse
  rw [h]
  split
  · exact startArmed_local s t k h hg
  · exact ⟨h, hg⟩

/-- Work on one lane after another, each lane once: every lane of the list, and its group, is as the work on that lane alone
leaves it, and nothing else changes. -/
theorem foldl_lanes {f : State → LaneId → State} (ha : ∀ s k, LaneAlone k s (f s k)) (hf : LaneLocal f)
    {ks : List LaneId} (hk : ks.Nodup) (s : State) :
    ks.foldl f s = { s with lanes := (ks.foldl f s).lanes, events := (ks.foldl f s).events } ∧
    (∀ g : GroupId, (∀ k, g ≠ laneGroup k) → (ks.foldl f s).events.groups[g] = s.events.groups[g]) ∧
    ∀ k,
      (k ∈ ks → (ks.foldl f s).lane k = (f s k).lane k ∧
        (ks.foldl f s).events.groups[laneGroup k] = (f s k).events.groups[laneGroup k]) ∧
      (k ∉ ks → (ks.foldl f s).lane k = s.lane k ∧
        (ks.foldl f s).events.groups[laneGroup k] = s.events.groups[laneGroup k]) := by
  induction ks generalizing s with
  | nil => simp
  | cons a ks ih =>
    obtain ⟨hna, hn⟩ := List.nodup_cons.mp hk
    obtain ⟨h1, h2, h3⟩ := ih hn (f s a)
    have w := ha s a
    simp only [List.foldl_cons]
    refine ⟨by rw [h1, w.rest], fun g hg => (h2 g hg).trans (w.groups g (hg a)), fun k => ?_⟩
    obtain ⟨h4, h5⟩ := h3 k
    by_cases e : k = a
    · subst e
      exact ⟨fun _ => h5 hna, fun h => absurd (by simp) h⟩
    · have e1 := w.lanes k e
      have e2 := w.groups (laneGroup k) (laneGroup_ne e)
      refine ⟨fun hk => ?_, fun hk => ?_⟩
      · obtain ⟨h6, h7⟩ := h4 (by simpa [e] using hk)
        obtain ⟨h8, h9⟩ := hf (f s a) s k e1 e2
        exact ⟨h6.trans h8, h7.trans h9⟩
      · obtain ⟨h6, h7⟩ := h5 fun h => hk (by simp [h])
        exact ⟨h6.trans e1, h7.trans e2⟩

end Sys2Proof.Machine
end

