-- ==== Sys2Proof/Laws/Link.lean ====
section
/-! SUPPORT. What the shared operations of the control link do: serving the request in hand, and the receiver byte by
byte. -/
namespace Sys2Proof.Machine

variable {s : State} {k t : Byte} {b : List Byte}

theorem State.inHand_of_holds (h : s.holds k t b) : s.inHand { kind := k, tag := t, body := b } = some s := by
  unfold State.holds at h
  simp [State.inHand, h]

/-- A request that is in hand is served in this state. -/
theorem State.inHand_eq_of_rests (h : s.rests) (f : Frame) :
    s.inHand f = some { s with link := { s.link with decoder := some f } } := by
  obtain ⟨h0, h1, h2, h3, h4⟩ := h
  have : s.link.freeSlots > 0 := by simp [Link.freeSlots, h1, Config.outboundSlots]; omega
  simp [State.inHand, h0, h1, h2, h3, this]

/-- A request that is neither in hand nor at rest with the link is not served. -/
theorem State.inHand_eq_none {f : Frame} (h : s.link.decoder ≠ some f) (hr : ¬ s.rests) : s.inHand f = none := by
  unfold State.inHand
  cases hd : s.link.decoder with
  | some g =>
    have : g ≠ f := fun e => h (by rw [hd, e])
    simp [this]
  | none =>
    have : ¬ (s.inReset = false ∧ s.link.receiver = .hunting ∧ s.link.inbound = [] ∧ s.link.freeSlots > 0) := by
      rintro ⟨h0, h1, h2, h3⟩
      refine hr ⟨h0, hd, h2, h1, ?_⟩
      simp [Link.freeSlots, hd, Config.outboundSlots] at h3
      omega
    simp [this]

theorem State.reply_eq (s : State) (k t : Byte) (b : List Byte) (r : Reply) :
    s.reply { kind := k, tag := t, body := b } r =
      s.answered k t r.result.code (if r.result = .ok then r.data else []) := rfl

/-- The request in hand, of a fitting length, is applied by its rule and answered. -/
theorem serve_holds {rule : List Byte → State → State × Reply} (h : s.holds k t b)
    (hl : lengthFits k b.length = true) :
    serve k t b rule s =
      (rule b s).1.answered k t (rule b s).2.result.code
        (if (rule b s).2.result = .ok then (rule b s).2.data else []) := by
  simp [serve, State.inHand_of_holds h, hl, State.reply_eq]

/-- The request in hand, taken by its rule with no data in the reply. -/
theorem serve_accept {rule : List Byte → State → State × Reply} {u : State} (h : s.holds k t b)
    (hl : lengthFits k b.length = true) (hr : rule b s = accept u) : serve k t b rule s = u.answered k t 0x00 [] := by
  rw [serve_holds h hl, hr]; rfl

/-- The request in hand, answered OK with data. -/
theorem serve_okWith {rule : List Byte → State → State × Reply} {u : State} {d : List Byte} (h : s.holds k t b)
    (hl : lengthFits k b.length = true) (hr : rule b s = (u, okWith d)) : serve k t b rule s = u.answered k t 0x00 d := by
  rw [serve_holds h hl, hr]; rfl

/-- The request in hand, refused by its rule or answered with another result than OK. -/
theorem serve_result {rule : List Byte → State → State × Reply} {u : State} {r : Result} (h : s.holds k t b)
    (hl : lengthFits k b.length = true) (hr : rule b s = (u, bare r)) :
    serve k t b rule s = u.answered k t r.code [] := by
  rw [serve_holds h hl, hr]; cases r <;> rfl

/-- The request in hand, of a length that does not fit, is answered BAD_LENGTH. -/
theorem serve_badLength {rule : List Byte → State → State × Reply} (h : s.holds k t b)
    (hl : lengthFits k b.length = false) : serve k t b rule s = s.answered k t 0x11 [] := by
  simp [serve, State.inHand_of_holds h, hl, State.reply_eq, bare, Result.code]

/-- A request that finds the link at rest is served as the request in hand. -/
theorem serve_rests {rule : List Byte → State → State × Reply} (h : s.rests) :
    serve k t b rule s =
      serve k t b rule { s with link := { s.link with decoder := some { kind := k, tag := t, body := b } } } := by
  simp only [serve, State.inHand_eq_of_rests h]
  rw [State.inHand_of_holds (s := { s with link := { s.link with decoder := some { kind := k, tag := t, body := b } } }) rfl]

/-- A request that is not served changes nothing. -/
theorem serve_none {rule : List Byte → State → State × Reply}
    (h : s.inHand { kind := k, tag := t, body := b } = none) : serve k t b rule s = s := by
  simp [serve, h]

/-- A rule that refuses leaves the state alone. -/
@[simp] theorem refuse_fst (s : State) (r : Result) : (refuse s r).1 = s := rfl
@[simp] theorem refuse_snd (s : State) (r : Result) : (refuse s r).2 = bare r := rfl
@[simp] theorem accept_fst (s : State) : (accept s).1 = s := rfl
@[simp] theorem accept_snd (s : State) : (accept s).2 = bare .ok := rfl
@[simp] theorem bare_result (r : Result) : (bare r).result = r := rfl
@[simp] theorem bare_data (r : Result) : (bare r).data = [] := rfl
@[simp] theorem okWith_result (d : List Byte) : (okWith d).result = .ok := rfl
@[simp] theorem okWith_data (d : List Byte) : (okWith d).data = d := rfl

theorem small?_eq {n v : Nat} {i : Fin n} (h : v = i.val) : small? n v = some i := by
  subst h; simp [small?]

theorem small?_none {n v : Nat} (h : n ≤ v) : small? n v = none := by simp [small?, h]

theorem withLane_eq {body : List Byte} {i : LaneId} (h : field body 0 1 = i.val) (s : State)
    (rule : LaneId → State × Reply) : withLane body s rule = rule i := by
  simp [withLane, small?_eq h]

theorem withLane_none {body : List Byte} (h : 6 ≤ field body 0 1) (s : State) (rule : LaneId → State × Reply) :
    withLane body s rule = refuse s .badParam := by
  simp [withLane, small?_none h]

/-! ### The receiver -/

variable {tick : Nat} {fuel : Nat} {x : Byte} {rest : List Byte}

@[simp] theorem State.examine_nil : State.examine tick fuel [] s = s := by cases fuel <;> rfl

/-- A byte that is no marker is discarded while hunting. -/
theorem State.examine_hunting_other (h : s.link.receiver = .hunting) (hx : x ≠ Config.marker) :
    State.examine tick (fuel + 1) (x :: rest) s = State.examine tick fuel rest s := by
  simp [State.examine, h, hx]

/-- A marker opens a frame while hunting. -/
theorem State.examine_hunting_marker (h : s.link.receiver = .hunting) :
    State.examine tick (fuel + 1) (Config.marker :: rest) s =
      State.examine tick fuel rest { s with link := { s.link with receiver := .inFrame [] tick } } := by
  simp [State.examine, h]

/-- A byte within a frame that it does not complete. -/
theorem State.examine_inFrame_short {held : List Byte} {t0 : Nat} (h : s.link.receiver = .inFrame held t0)
    (h2 : 2 ≤ ((held ++ [x]).headD 0).toNat) (h3 : ((held ++ [x]).headD 0).toNat ≤ 250)
    (h4 : (held ++ [x]).length < ((held ++ [x]).headD 0).toNat + 2) :
    State.examine tick (fuel + 1) (x :: rest) s =
      State.examine tick fuel rest { s with link := { s.link with receiver := .inFrame (held ++ [x]) tick } } := by
  rw [State.examine]
  simp only [h]
  rw [if_neg (by omega), if_pos h4]

/-- A length byte out of range is refused at once. -/
theorem State.examine_inFrame_length {held : List Byte} {t0 : Nat} (h : s.link.receiver = .inFrame held t0)
    (h2 : ((held ++ [x]).headD 0).toNat < 2 ∨ 250 < ((held ++ [x]).headD 0).toNat) :
    State.examine tick (fuel + 1) (x :: rest) s =
      State.examine tick fuel rest
        (State.raise { s with link := { s.link with receiver := .hunting } } .badFrame) := by
  rw [State.examine]
  simp only [h]
  rw [if_pos (by omega)]

/-- A byte that completes a good frame: the frame is offered to the inbound queue. -/
theorem State.examine_inFrame_good {held : List Byte} {t0 : Nat} (h : s.link.receiver = .inFrame held t0)
    (h2 : 2 ≤ ((held ++ [x]).headD 0).toNat) (h3 : ((held ++ [x]).headD 0).toNat ≤ 250)
    (h4 : ((held ++ [x]).headD 0).toNat + 2 ≤ (held ++ [x]).length) (h5 : sumGood (held ++ [x]) = true) :
    State.examine tick (fuel + 1) (x :: rest) s =
      State.examine tick fuel rest
        (State.offerFrame { s with link := { s.link with receiver := .hunting } } (frameOf (held ++ [x]))) := by
  rw [State.examine]
  simp only [h]
  rw [if_neg (by omega), if_neg (by omega), if_pos h5]

/-- A byte that completes a bad frame: the held bytes are examined again. -/
theorem State.examine_inFrame_bad {held : List Byte} {t0 : Nat} (h : s.link.receiver = .inFrame held t0)
    (h2 : 2 ≤ ((held ++ [x]).headD 0).toNat) (h3 : ((held ++ [x]).headD 0).toNat ≤ 250)
    (h4 : ((held ++ [x]).headD 0).toNat + 2 ≤ (held ++ [x]).length) (h5 : sumGood (held ++ [x]) = false) :
    State.examine tick (fuel + 1) (x :: rest) s =
      State.examine tick fuel (held ++ [x] ++ rest)
        (State.raise { s with link := { s.link with receiver := .hunting } } .badFrame) := by
  rw [State.examine]
  simp only [h]
  rw [if_neg (by omega), if_neg (by omega), if_neg (by simp [h5])]

/-- The fuel of one arriving byte, as a successor. -/
theorem examineFuel_succ : examineFuel = 64008 + 1 := rfl

@[simp] theorem State.timerOverdue_of_hunting (h : s.link.receiver = .hunting) : s.timerOverdue = false := by
  simp [State.timerOverdue, Link.timerDue, h]

theorem State.timerOverdue_of_inFrame {held : List Byte} {t0 : Nat} (h : s.link.receiver = .inFrame held t0) :
    s.timerOverdue = decide (t0 + 135000 < s.clock.now) := by
  simp [State.timerOverdue, Link.timerDue, h, Config.interByteTicks]

/-- A byte received while the inter-byte timer has not run out. -/
theorem execReceiveByte_timely {e : Nat} (hr : s.inReset = false) (h : (s.elapse e).timerOverdue = false) :
    execReceiveByte e x s = .next ((s.elapse e).byteArrives x) := by
  simp [execReceiveByte, h, hr]

/-- While RESET is asserted a character is lost (R165). -/
theorem execReceiveByte_inReset {e : Nat} (h : s.inReset = true) : execReceiveByte e x s = .next (s.elapse e) := by
  simp [execReceiveByte, h]

end Sys2Proof.Machine
end

