-- ==== Sys2Proof/WellFormed.lean ====
section
/-! DEFINITION. Which commands are well formed: a request frame the receiver can deliver and whose kind and body length
the Decoder's table lists, an UNKNOWN_KIND whose kind the table does not list, a frame order that names no act twice, a
slot the Symbol Table has. exec is total and gives every command its meaning, well formed or not. -/
namespace Sys2Proof

/-- A body fits the envelope: at most 248 bytes (R166). -/
def bodyFitsFrame (body : List Byte) : Bool := decide (body.length ≤ 248)

/-- A request command is well formed when its body fits its kind (R172); an UNKNOWN_KIND when its kind is not listed. -/
def requestWellFormed (kind : Byte) (body : List Byte) : Bool :=
  bodyFitsFrame body && lengthFits kind body.length

/-- A frame order names no act twice (each block answers a frame start once, R130). -/
def orderWellFormed (order : FrameOrder) : Bool := decide order.Nodup

def Instr.wellFormed (i : Instr) : Bool :=
  match i with
  | .unknownKind k _ b => bodyFitsFrame b && (bodyLengths k).isNone
  | .timingSetup _ order _ b => requestWellFormed 0x70 b && orderWellFormed order
  | .framePeriodExpiry order => orderWellFormed order
  | .windowExpiry order => orderWellFormed order
  | .referencePulse _ order => orderWellFormed order
  | .symbolStale slot => decide (slot < Config.symbolSlots)
  | i =>
    match requestFrame i with
    | some (k, _, b) => requestWellFormed k b
    | none => true

end Sys2Proof
end

