-- ==== Sys2Proof/Tests/Slice0.lean ====
section
/-! SUPPORT. Tests. The first part refuses ill-formed commands, one for each check of WellFormed; the second holds the model to
the worked examples and tables of the guide (the section is named; no expected value comes from the model); the third shows,
for every statement with hypotheses, states and operands that meet them, clause by clause. -/
namespace Sys2Proof.Tests
open Sys2Proof Sys2Proof.Machine

/-! ### Helpers -/

/-- The state a command leaves. -/
def after (c : Instr) (s : State) : State :=
  match exec c s with
  | .next t => t
  | _ => s

/-- The bodies of the replies that wait. -/
def replies (s : State) : List (List Byte) := s.link.outbound.map Frame.body

/-- A request of tag 7 in hand. -/
def asked (k : Byte) (b : List Byte) (s : State) : State :=
  s.withLink { s.link with decoder := some { kind := k, tag := 7, body := b } }

/-- The reset state with another lane 0. -/
def lane0 (l : Lane) : State := State.reset.setLane 0 l

/-- A glyph's worth of zero bytes. -/
def zeros (n : Nat) : List Byte := List.replicate n 0

/-! ### Ill-formed commands are refused -/

theorem test_body_of_another_length_is_ill_formed : (Instr.laneQuery 7 [0, 0]).wellFormed = false := by decide
theorem test_body_above_the_envelope_is_ill_formed : (Instr.unknownKind 0x7F 7 (zeros 249)).wellFormed = false := by
  decide +kernel
theorem test_listed_kind_as_unknown_is_ill_formed : (Instr.unknownKind 0x01 7 []).wellFormed = false := by decide
theorem test_act_twice_in_timing_setup_is_ill_formed :
    (Instr.timingSetup 0 [.symbols, .symbols] 7 (zeros 6)).wellFormed = false := by decide
theorem test_act_twice_in_period_expiry_is_ill_formed :
    (Instr.framePeriodExpiry [.lane 0, .lane 0]).wellFormed = false := by decide
theorem test_act_twice_in_window_expiry_is_ill_formed :
    (Instr.windowExpiry [.freeze 5, .lane 0, .freeze 5]).wellFormed = false := by decide
theorem test_act_twice_in_reference_pulse_is_ill_formed :
    (Instr.referencePulse 0 [.symbols, .lane 1, .symbols]).wellFormed = false := by decide
theorem test_slot_beyond_the_table_is_ill_formed : (Instr.symbolStale 1024).wellFormed = false := by decide
theorem test_well_formed_commands_pass :
    (Instr.laneQuery 7 [0]).wellFormed = true ∧ (Instr.unknownKind 0x7F 7 (zeros 248)).wellFormed = true ∧
      (Instr.symbolStale 1023).wellFormed = true ∧ (Instr.framePeriodExpiry [.lane 0, .freeze 0]).wellFormed = true := by
  decide +kernel

/-- No row of the table gives bits, so no word spells a command. -/
theorem test_no_word_spells_a_command : decodeTableWord 0 0 = none ∧ decodeTableWord 16 0xC310 = none := by decide

/-! ### Motion (1.3, 1.5) -/

theorem test_braking_distances :
    brakingDistance 256 32 = 896 ∧ brakingDistance 128 16 = 448 ∧ brakingDistance 4095 1 = 8382465 := by decide

/-- A lane at V = Vc = 256 and A = 32 with a hold target of dwell 150 so many steps ahead (1.5). -/
def braking (state : LaneState) (v distance : Nat) : Lane :=
  { Lane.powerOn with
    state := state, brake := if state = .brake then some .target else none, velocity := v, cruise := 256, accel := 32
    targets := [{ travel := distance, kind := .hold 150 }] }

theorem test_worked_braking_normal_step : (stepLane (braking .run 256 1244)).lane.travel = 256 := by decide
theorem test_worked_braking_enters_brake :
    (stepLane (braking .run 256 988)).lane.velocity = 224 ∧ (stepLane (braking .run 256 988)).lane.state = .brake := by decide
theorem test_worked_braking_creeps : (stepLane (braking .brake 32 92)).lane.travel = 32 := by decide
theorem test_worked_braking_lands :
    let r := stepLane (braking .brake 32 28)
    r.reached = true ∧ r.braking = 32 ∧ (r.lane.land r.ramp).state = .held ∧ (r.lane.land r.ramp).dwell = 150 := by decide
theorem test_short_brake :
    let r := stepLane (braking .run 256 100)
    r.reached = true ∧ r.braking = 224 ∧ r.lane.travel = 100 := by decide

/-- A stop and a hold target at one travel stop the lane (R12). -/
theorem test_stop_wins_over_hold :
    ({ Lane.powerOn with
        state := .run, travel := 5
        targets := [{ travel := 5, kind := .hold 9 }, { travel := 5, kind := .stop 2 }] }.land false).state = .stopped := by
  decide

/-! ### Sequences, printing and rendering (4.10, 5.4, 5.7, 5.8) -/

theorem test_sequence_comparisons :
    seqAhead none 65530 = true ∧ seqAhead (some 65530) 65534 = true ∧ seqAhead (some 65534) 65533 = false ∧
      seqAhead (some 65534) 2 = true ∧ seqAhead (some 0) 32767 = true ∧ seqAhead (some 0) 32768 = false ∧
        seqAhead (some 7) 7 = false := by decide

/-- Template 2 of 5.7, its codes those of ASCII, the arrows 80h to 82h. -/
def ticker : Template :=
  { fields := [.symbol, .gap 8, .price, .gap 8, .arrow, .change, .gap 6, .percent]
    numerals := { digit0 := 0x30, point := 0x2E, separator := 0x2C, plus := 0x2B, minus := 0x2D, percent := 0x25,
                  up := 0x80, down := 0x81, flat := 0x82, noValue := 0x2A }
    halt := [0x48], grouping := true
    colours := { up := 9, down := 10, flat := 11, halted := 12, stale := 13, flashUp := 14, flashDown := 15,
                 noPrice := 8 } }

theorem test_worst_case_count_of_the_ticker : worstCount ticker = 42 := by decide

theorem test_amounts_print_as_in_R97 :
    printAmount ticker 12345 2 = [0x31, 0x32, 0x33, 0x2E, 0x34, 0x35] ∧ printAmount ticker 5 2 = [0x30, 0x2E, 0x30, 0x35] ∧
      printAmount ticker 100140 2 = [0x31, 0x2C, 0x30, 0x30, 0x31, 0x2E, 0x34, 0x30] ∧
      printAmount ticker 999999999 0 = [0x39, 0x39, 0x39, 0x2C, 0x39, 0x39, 0x39, 0x2C, 0x39, 0x39, 0x39] ∧
      printAmount ticker 0 3 = [0x30, 0x2E, 0x30, 0x30, 0x30] := by decide

theorem test_percentages :
    percentHundredths 12345 12225 = 98 ∧ percentHundredths 12398 12225 = 142 ∧ percentHundredths 99820 99500 = 32 ∧
      percentHundredths 100140 99500 = 64 := by decide

/-- The quote of 5.7: ZQW 123.45 up +1.20 +0.98%. -/
theorem test_worked_quote :
    flatEntries (renderQuote ticker { code := [0x5A, 0x51, 0x57, 0x20, 0x20, 0x20, 0x20, 0x20], price := some 12345,
                                      reference := some 12225, decimals := 2, halted := false }) =
      [.glyph 0x5A, .glyph 0x51, .glyph 0x57, .gap 8] ++
      [.glyph 0x31, .glyph 0x32, .glyph 0x33, .glyph 0x2E, .glyph 0x34, .glyph 0x35, .gap 8, .glyph 0x80] ++
      [.glyph 0x2B, .glyph 0x31, .glyph 0x2E, .glyph 0x32, .glyph 0x30, .gap 6] ++
      [.glyph 0x2B, .glyph 0x30, .glyph 0x2E, .glyph 0x39, .glyph 0x38, .glyph 0x25] := by decide

/-! ### Pixels (8.6) -/

/-- The cell of 8.6: left edge 6,416, its first columns of coverage 15 and 3 on row 0. -/
def column : DrawnCell :=
  { left := 6416, width := 8, ink := { y := 940, cb := 512, cr := 512, gain := 1023 }, entries := [.image 8 [0xF3#8]] }

theorem test_worked_column_values :
    column.value true 0 100 = 11 ∧ column.value true 0 101 = 6 ∧ column.value false 0 100 = 0 ∧
      column.value false 0 101 = 15 := by decide

theorem test_worked_mix :
    mixPixel column.ink { y := 64, cb := 512, cr := 512, gain := 512 } 6 = { y := 414, cb := 512, cr := 512, key := 716 } ∧
      mixPixel column.ink { y := 64, cb := 512, cr := 512, gain := 512 } 11 = { y := 706, cb := 512, cr := 512, key := 887 } := by
  decide

/-! ### The link (10.8, 10.9) -/

/-- The body of 10.8: ZQW, sequence 2, price 12,340. -/
def priceBody : List Byte := [0x5A, 0x51, 0x57, 0x20, 0x20, 0x20, 0x20, 0x20, 0x00, 0x02, 0x00, 0x00, 0x30, 0x34]

theorem test_price_on_the_wire :
    Frame.wire { kind := 0x41, tag := 0x07, body := priceBody } = [0xC3, 0x10, 0x41, 0x07] ++ priceBody ++ [0xA0] ∧
      Frame.wire (replyFrame { kind := 0x41, tag := 0x07, body := priceBody } (bare .ok)) =
        [0xC3, 0x03, 0xC1, 0x07, 0x00, 0x35] := by decide

/-- The receiver one byte short of the frame of 10.8. -/
def nearlyReceived : State :=
  State.reset.withLink { Link.powerOn with receiver := .inFrame ([0x10, 0x41, 0x07] ++ priceBody) 0 }

theorem test_price_is_received :
    (after (.receiveByte 300 0xA0) nearlyReceived).link.inbound = [{ kind := 0x41, tag := 0x07, body := priceBody }] := by
  decide +kernel

theorem test_damaged_price_is_refused :
    (after (.receiveByte 300 0xA1) nearlyReceived).link.receiver = .hunting ∧
      (after (.receiveByte 300 0xA1) nearlyReceived).events.groups[9].pending = 1 := by decide +kernel

/-- Frame 13 of 10.9: both queues full, no reply. -/
theorem test_frame_against_full_queues :
    let f : Frame := { kind := 0x41, tag := 13, body := priceBody }
    let s := (nearlyReceived.withLink { nearlyReceived.link with
      inbound := List.replicate 4 f, outbound := List.replicate 8 f, sending := true })
    (after (.receiveByte 0 0xA0) s).link.outbound.length = 8 ∧ (after (.receiveByte 0 0xA0) s).link.inbound.length = 4 ∧
      (after (.receiveByte 0 0xA0) s).events.groups[9].pending = 2 := by decide +kernel

/-! ### One request each (1.6, 4.10, 6.7, 9.2, 10.4) -/

theorem test_ident_names_the_part :
    replies (after (.ident 7 []) State.reset) =
      [[0x00, 0x49, 0x4A, 0x06, 0x06, 0x01, 0x06, 0x08, 0x00, 0x04, 0x00, 0x01, 0x00, 0x20, 0x00]] := by decide +kernel

/-- Symbol ZQW in slot 3, after step 3 of 4.10. -/
def session (halted : Bool) : State :=
  { State.reset with
    clock := { State.reset.clock with counter := 10040 }
    symbols := [(3, { code := priceBody.take 8, cls := 2, decimals := 2, price := some 12345, previous := some 12300
                      reference := some 12225, lastSeq := some 65534, halted := halted, stale := false
                      lastUpdate := 10030, refCount := 0, viewList := [] })] }

theorem test_price_session_step_5 :
    ((after (.symPrice 7 priceBody) (session false)).symbol? 3).map (fun r => (r.price, r.previous, r.lastSeq, r.lastUpdate)) =
      some (some 12340, some 12345, some 2, 10040) := by decide +kernel

theorem test_price_session_step_9 :
    replies (after (.symPrice 7 priceBody) (session true)) = [[0x1E]] := by decide +kernel

/-- 6.7: the first chunk of glyph 41h in face 1. -/
theorem test_first_chunk_of_a_glyph :
    let s := { State.reset with faces := State.reset.faces.set 1 { height := 40, defaultAdvance := 10, glyphs := [] } }
    let t := after (.glyphLoad 7 ([0x01, 0x41, 0x18, 0x00, 0x00] ++ zeros 240)) s
    replies t = [[0x00, 0x00, 0xF0, 0x01, 0xE0]] ∧ heldGranules t.faces = [0, 1, 2, 3, 4, 5, 6, 7] := by decide +kernel

theorem test_granules_and_blocks_of_6_7 :
    ceilDiv (expectedBytes 40 7) 64 = 3 ∧ expectedBytes 40 63 = 1260 ∧ ceilDiv (expectedBytes 40 63) 64 = 20 ∧
      ceilDiv 70 32 = 3 := by decide

/-! ### Frame starts (2.10, 3.6, 7.7, 8.7) -/

/-- A queued MARK of a minimum width. -/
def queuedMark (lane : LaneId) (width : Nat) : Item :=
  { lane := lane, content := .mark 0x41, passes := 0, holdDwell := none, minWidth := width, ink := 15, cell := none }

/-- The entry of 2.10, with a cell of 180 pixels: E = 0 and N = 12,544. -/
theorem test_entry_of_2_10 :
    let s := { State.reset with
      lanes := State.reset.lanes.set 1 { Lane.powerOn with state := .run, accel := 64, queued := [0] }
      pool := { items := [(0, queuedMark 1 180)], generations := [] } }
    let t := after (.framePeriodExpiry []) s
    (t.lane 1).nextEntry = 12544 ∧ (t.lane 1).visible = [0] ∧ (t.lane 1).travel = 64 ∧
      (t.item? 0).bind (fun it => it.cell.map fun c => (c.entry, c.width)) = some (0, 180) := by decide +kernel

/-- The two cues of 3.6. -/
def twoCues : State :=
  let lane0 : Lane :=
    { Lane.powerOn with
      state := .run, travel := 50000, velocity := 128, nextEntry := 50000, entries := 39, queued := [0]
      staged := some { cruise := 64, accel := 8 }
      cues := #v[{ source := .travel, method := .cross, value := 50100, action := .loadStaged, syncMask := 0x10,
                   repeats := false, armed := true },
                 { source := .entries, method := .reach, value := 40, action := .stopRamp, syncMask := 0,
                   repeats := false, armed := true }, Cue.powerOn, Cue.powerOn] }
  let lane4 : Lane :=
    { Lane.powerOn with
      state := .armed, arm := some { condition := .sync, returns := .idle, met := false }, queued := [1] }
  { State.reset with
    lanes := (State.reset.lanes.set 0 lane0).set 4 lane4
    pool := { items := [(0, queuedMark 0 20), (1, queuedMark 4 20)], generations := [] } }

theorem test_two_cues_of_3_6 :
    let t := after (.framePeriodExpiry []) twoCues
    (t.lane 0).state = .brake ∧ (t.lane 0).brake = some .ramp ∧ (t.lane 0).travel = 50128 ∧ (t.lane 0).velocity = 128 ∧
      (t.lane 0).cruise = 64 ∧ (t.lane 0).accel = 8 ∧ (t.lane 0).staged = none ∧ (t.lane 4).state = .run := by
  decide +kernel

/-- A clock of 7.7 in SEEK with two consistent pulses, the last at 550,450. -/
def seeking (origin now : Nat) : State :=
  { State.reset with
    clock := { now := now, source := .reference, period := 450450, relock := 3, lock := .seek, consistent := 2
               previousPulse := some 550450, origin := origin, counter := 2 } }

theorem test_locking_pulse_of_7_7 :
    let t := after (.referencePulse 100000 []) (seeking 900900 900900)
    t.clock.lock = .locked ∧ t.clock.consistent = 3 ∧ t.clock.origin = 1000900 ∧ t.clock.counter = 2 := by decide +kernel

theorem test_locking_pulse_late_in_a_frame_is_a_frame_start :
    let t := after (.referencePulse 0 []) (seeking 700900 1000900)
    t.clock.lock = .locked ∧ t.clock.origin = 1000900 ∧ t.clock.counter = 3 := by decide +kernel

/-- 8.7 under FREEZE: lane 0 meets the frame start first, lane 2 the freeze. -/
theorem test_freeze_of_8_7 :
    let run : Lane := { Lane.powerOn with state := .run, velocity := 128 }
    let s := { State.reset with
      lanes := (State.reset.lanes.set 0 run).set 2 run
      compositor := { State.reset.compositor with
        state := .composing, policy := .freeze, inFlight := some State.reset.snapshot } }
    let t := after (.framePeriodExpiry [.lane 0, .freeze 2, .lane 2]) s
    (t.lane 0).state = .frozen ∧ (t.lane 0).travel = 128 ∧ (t.lane 2).state = .frozen ∧ (t.lane 2).travel = 0 ∧
      t.compositor.state = .halted := by decide +kernel

/-- 9.8, R160: of two groups that have factors pending, the one of the higher level is chosen, then the lower code. -/
theorem test_event_next_chooses_by_level :
    ((EventUnit.powerOn.record .queueFull).record (.shortBrake 3)).chosen = some 5 ∧
      ((EventUnit.powerOn.record (.shortBrake 4)).record (.shortBrake 3)).chosen = some 5 := by decide +kernel

/-! ### Witnesses: the queue, the link and the Decoder -/

theorem test_asked_holds (k : Byte) (b : List Byte) (s : State) : (asked k b s).holds k 7 b := rfl

/-- Frames to fill queues with. -/
def frames (n : Nat) : List Frame := List.replicate n { kind := 0x01, tag := 1, body := [] }

/-- The reset state with another link. -/
def linked (k : Link) : State := State.reset.withLink k

theorem test_witness_StepRunsTheFrontCommand : State.reset.pending = [] := rfl

theorem test_witness_RequestsActWhenInHandOrAtRest :
    requestFrame (.unknownKind 0x7F 7 []) = some (0x7F, 7, []) ∧ bodyLengths 0x7F = none ∧
      (linked { Link.powerOn with outbound := frames 7 }).rests ∧
      ¬ (asked 0x01 [] State.reset).holds 0x7F 7 [] ∧ ¬ (asked 0x01 [] State.reset).rests ∧
      ¬ (linked { Link.powerOn with outbound := frames 8 }).rests ∧ ¬ { State.reset with inReset := true }.rests :=
  ⟨rfl, rfl, ⟨rfl, rfl, rfl, rfl, by decide⟩, by simp [asked, State.holds, State.withLink], fun h => (by cases h.2.1),
    fun h => absurd h.2.2.2.2 (by decide), fun h => (by cases h.1)⟩

theorem test_witness_UnknownKindsAndBadLengthsAreRefused :
    bodyLengths 0x7F = none ∧ (asked 0x7F [] State.reset).holds 0x7F 7 [] ∧
      requestFrame (.laneQuery 7 []) = some (0x17, 7, []) ∧ Instr.laneQuery 7 [] ≠ .unknownKind 0x17 7 [] ∧
      bodyLengths 0x17 ≠ none ∧ lengthFits 0x17 ([] : List Byte).length = false ∧
      (asked 0x17 [] State.reset).holds 0x17 7 [] ∧ lengthFits 0x64 5 = false ∧ lengthFits 0x64 246 = false ∧
      0x80 ≤ (0x80 : Byte).toNat := by
  refine ⟨by decide, rfl, by decide, by decide, by decide, by decide, rfl, by decide, by decide, by decide⟩

theorem test_witness_LinkQueuesAreServedInOrder :
    let k := { Link.powerOn with inbound := frames 2, outbound := frames 7, sending := true }
    k.decoder = none ∧ k.inbound = { kind := 0x01, tag := 1, body := [] } :: frames 1 ∧ k.outbound.length < 8 ∧
      k.outbound = { kind := 0x01, tag := 1, body := [] } :: frames 6 ∧ k.sending = true ∧
      (asked 0x01 [] State.reset).link.decoder ≠ none ∧ Link.powerOn.inbound = [] ∧ 8 ≤ (frames 8).length ∧
      Link.powerOn.sending = false := by decide

theorem test_witness_WireBytesReachTheInboundQueue :
    (zeros 248).length ≤ 248 ∧ (linked { Link.powerOn with inbound := frames 3 }).inReset = false ∧
      (linked { Link.powerOn with inbound := frames 3 }).link.receiver = .hunting ∧
      (linked { Link.powerOn with inbound := frames 3 }).link.inbound.length < 4 := by decide +kernel

/-- A receiver in frame since tick 0. -/
def inFrame (held : List Byte) (inbound : List Frame) : State :=
  linked { Link.powerOn with receiver := .inFrame held 0, inbound := inbound }

theorem test_witness_ReceiverHuntsAndCollects :
    { State.reset with inReset := true }.inReset = true ∧ State.reset.inReset = false ∧
      (inFrame [] []).inReset = false ∧ State.reset.link.receiver = .hunting ∧ (0xC2 : Byte) ≠ 0xC3 ∧
      (inFrame [] []).link.receiver = .inFrame [] 0 ∧ (inFrame [] []).clock.now + 135000 ≤ 0 + 135000 ∧
      ([] ++ [2] : List Byte) = 2 :: [] ∧ 2 ≤ (2 : Byte).toNat ∧ (250 : Byte).toNat ≤ 250 ∧
      ([250] ++ zeros 249 ++ [0] : List Byte).length < (250 : Byte).toNat + 2 ∧
      (1 : Byte).toNat < 2 ∧ 250 < (251 : Byte).toNat ∧
      ([2, 1, 1] ++ [0xFC] : List Byte) = 2 :: 1 :: 1 :: ([] ++ [0xFC]) ∧ ([] : List Byte).length + 2 = (2 : Byte).toNat ∧
      (([2, 1, 1] ++ [0xFC] : List Byte).map BitVec.toNat).sum % 256 = 0 ∧
      (inFrame [2, 1, 1] (frames 3)).link.inbound.length < 4 ∧ 4 ≤ (inFrame [2, 1, 1] (frames 4)).link.inbound.length := by
  decide +kernel

theorem test_witness_RefusedFramesAreExaminedAgainOrDropped :
    { State.reset with inReset := true }.inReset = true ∧ (inFrame [2, 1, 1] []).inReset = false ∧
      State.reset.link.receiver = .hunting ∧ (inFrame [2, 1, 1] []).link.receiver = .inFrame [2, 1, 1] 0 ∧
      (inFrame [2, 1, 1] []).clock.now + 135000 ≤ 0 + 135000 ∧ ([2, 1, 1] ++ [0xC3] : List Byte) = 2 :: [1, 1, 0xC3] ∧
      ([2, 1, 1] ++ [0xC3] : List Byte).length = (2 : Byte).toNat + 2 ∧
      (([2, 1, 1] ++ [0xC3] : List Byte).map BitVec.toNat).sum % 256 ≠ 0 ∧
      (inFrame [2, 1, 1] []).clock.now ≤ 0 + 135000 ∧ 0 + 135000 < (inFrame [2, 1, 1] []).clock.now + 135001 ∧
      0 + 135000 < ((inFrame [2, 1, 1] []).elapse 135001).clock.now := by
  decide

theorem test_witness_LinkStaysSound :
    let s := { inFrame [250] (frames 4) with pending := [.byteError 1] }
    s.link.Sound ∧ ∃ t, step s = .next t := by
  refine ⟨⟨by decide, by decide, by decide, ?_⟩, _, rfl⟩
  intro held t h
  cases h
  exact .inr ⟨250, [], rfl, by decide, by decide, by decide⟩

/-! ### Witnesses: resets and the Event Unit -/

/-- Two items, a symbol and a text: QUOTE 0 visible and TEXT 1 queued in lane 0. -/
def shop : State :=
  { State.reset with
    lanes := State.reset.lanes.set 0 { Lane.powerOn with state := .stopped, visible := [0], queued := [1] }
    pool :=
      { items := [(0, { lane := 0, content := .quote (priceBody.take 8) 3, passes := 1, holdDwell := some 9, minWidth := 0
                        ink := 1
                        cell := some { entry := 0, width := 10, rendering := .quote [], style := .flat, flash := 0
                                       flashDir := .up, forcedStale := false } }),
                  (1, { lane := 0, content := .text 7, passes := 2, holdDwell := none, minWidth := 0, ink := 1
                        cell := none })]
        generations := [(0, 31)] }
    symbols := [(3, { code := priceBody.take 8, cls := 2, decimals := 2, price := some 12345, previous := some 12300
                      reference := none, lastSeq := some 1, halted := false, stale := false, lastUpdate := 0
                      refCount := 1, viewList := [0] })]
    texts := [(7, { blocks := [0], codes := [0x20], refCount := 1, viewCount := 0 })] }

theorem test_shop_lists_agree : shop.ListsAgree := by
  have find : ∀ slot it, shop.item? slot = some it → (slot = 0 ∨ slot = 1) ∧ it.lane = 0 ∧ it.cell.isSome = decide (slot = 0) := by
    intro slot it h
    simp only [shop, State.item?, tableFind] at h
    split at h
    · subst slot; cases h; decide
    · split at h
      · subst slot; cases h; decide
      · cases h
  refine ⟨by decide, fun slot it h => ?_, by decide, ?_, ?_, fun slot it h => ?_, by decide, by decide⟩
  · have := (find slot it h).1
    simp only [Config.itemSlots]; omega
  · intro i slot h
    fin_cases i
    · have : slot = 0 := by simpa [shop, State.lane] using h
      subst this; exact ⟨_, rfl, rfl, rfl⟩
    all_goals exact absurd h (by simp [shop, State.lane, State.reset, State.powerOn, Lane.powerOn])
  · intro i slot h
    fin_cases i
    · have : slot = 1 := by simpa [shop, State.lane] using h
      subst this; exact ⟨_, rfl, rfl, rfl⟩
    all_goals exact absurd h (by simp [shop, State.lane, State.reset, State.powerOn, Lane.powerOn])
  · have hf := find slot it h
    rw [hf.2.1]
    rcases hf.1 with rfl | rfl <;> decide

theorem test_shop_references_agree : shop.ReferencesAgree := by
  have slots : ∀ slot it, shop.item? slot = some it → slot = 0 ∨ slot = 1 := by
    intro slot it h
    by_contra hn
    simp [shop, State.item?, tableFind, show 0 ≠ slot by omega, show 1 ≠ slot by omega] at h
  have symbol : ∀ link r, shop.symbol? link = some r → link = 3 := by
    intro link r h
    by_contra hn
    simp [shop, State.symbol?, tableFind, show 3 ≠ link by omega] at h
  have text : ∀ id r, shop.text? id = some r → id = 7 := by
    intro id r h
    by_contra hn
    simp [shop, State.text?, tableFind, show 7 ≠ id by omega] at h
  have shows : shop.ShowsQuote 0 3 := ⟨_, _, rfl, rfl, rfl⟩
  refine ⟨by decide, by decide, fun slot it code link h hc => ?_, fun slot it id h hc => ?_, fun slot it c h hc => ?_,
    fun link r h => ?_, fun id r h => ?_, fun id r h => ?_, fun link r h => ?_, by decide,
    fun slot h => (by cases h), fun f h => (by cases h)⟩
  · rcases slots slot it h with rfl | rfl <;> cases h <;> cases hc
    exact ⟨_, rfl, rfl⟩
  · rcases slots slot it h with rfl | rfl <;> cases h <;> cases hc
    rfl
  · rcases slots slot it h with rfl | rfl <;> cases h <;> cases hc
    exact ⟨_, rfl⟩
  · cases symbol link r h; cases h; decide
  · cases text id r h; cases h; decide
  · cases text id r h; cases h; decide
  · cases symbol link r h; cases h
    refine ⟨by decide, fun slot => ⟨fun hs => ?_, fun ⟨it, code, hi, hc, hv⟩ => ?_⟩⟩
    · cases List.mem_singleton.mp hs; exact shows
    · rcases slots slot it hi with rfl | rfl <;> cases hi <;> cases hc
      decide

theorem test_witness_DeviceResetActsOnEveryBlock :
    (asked 0x02 [] shop).holds 0x02 7 [] ∧ tableRising (asked 0x02 [] shop).pool.items = true ∧
      tableRising (asked 0x02 [] shop).pool.generations = true := ⟨rfl, by decide, by decide⟩

/-- RESET asserted at tick 10, five ticks ago, with one command waiting. -/
def inReset : State :=
  { State.powerOn true 10 (Vector.replicate 4 true) [.receiveByte 1 0xC3] with clock := { FrameClock.powerOn 10 with now := 15 } }

theorem test_in_reset_is_held : inReset.HeldInReset := fun _ => by
  simp [inReset, State.powerOn, FrameClock.powerOn, Gpi.powerOn]

theorem test_witness_PowerOnResetGivesThePowerOnValues :
    inReset.HeldInReset ∧ inReset.inReset = true ∧ (∀ edge, Instr.receiveByte 1 0xC3 ≠ .powerOnReset edge) ∧
      (∀ e n, Instr.receiveByte 1 0xC3 ≠ .gpiLevelChange e n) :=
  ⟨test_in_reset_is_held, rfl, by simp, by simp⟩

/-- R165: a character that arrives while RESET is asserted is lost, the marker too. -/
theorem test_character_is_lost_in_reset :
    (after (.receiveByte 0 0xC3) inReset).link.receiver = .hunting ∧
      (after (.receiveByte 0 0xC3) (after (.powerOnReset { elapsed := 0, asserted := false }) inReset)).link.receiver = .inFrame [] 15 := by decide

theorem test_witness_RaisedFactorsAreRecorded : (1 : GroupId) ≠ Factor.frame.group ∧ 15 < 16 := by decide

theorem test_witness_EventUnitIsProgrammed :
    (asked 0x08 [9, 0xFF, 0xFF] State.reset).holds 0x08 7 [9, 0xFF, 0xFF] ∧
      field [9, 0xFF, 0xFF] 0 1 = (9 : GroupId).val ∧ 9 < field [10, 0xFF, 0xFF] 0 1 ∧
      (asked 0x09 [9, 3] State.reset).holds 0x09 7 [9, 3] ∧ field [9, 3] 0 1 = (9 : GroupId).val ∧
      field [9, 3] 1 1 = (3 : Fin 4).val ∧ 9 < field [10, 3] 0 1 ∧ 3 < field [9, 4] 1 1 ∧
      (asked 0x0D [1] State.reset).holds 0x0D 7 [1] ∧ field [1] 0 1 ≤ 1 ∧ 1 < field [2] 0 1 :=
  ⟨rfl, by decide, by decide, rfl, by decide, by decide, by decide, by decide, rfl, by decide, by decide⟩

/-- Factors pending in the groups of lanes 0 and 1 and in LINK. -/
def alarmed : State := ((State.reset.raise (.shortBrake 0)).raise (.shortBrake 1)).raise .badFrame

theorem test_witness_EventReadsClearWhatTheyReturn :
    (asked 0x0A [] alarmed).holds 0x0A 7 [] ∧ (asked 0x0B [] alarmed).holds 0x0B 7 [] ∧
      (∀ g : GroupId, State.reset.events.groups[g].pending = 0) ∧ (asked 0x0B [] alarmed).events.groups[(2 : GroupId)].pending ≠ 0 ∧
      (∀ h : GroupId, alarmed.events.groups[h].pending ≠ 0 → h ≠ 2 →
        alarmed.events.groups[h].level < alarmed.events.groups[(2 : GroupId)].level ∨
          (alarmed.events.groups[h].level = alarmed.events.groups[(2 : GroupId)].level ∧ 2 < h)) ∧
      (asked 0x0C [9] alarmed).holds 0x0C 7 [9] ∧ field [9] 0 1 = (9 : GroupId).val ∧ 9 < field [10] 0 1 :=
  ⟨rfl, rfl, by decide +kernel, by decide +kernel, by decide +kernel, rfl, by decide, by decide⟩

theorem test_witness_PendingSetsHoldRecordedFactorsOnly :
    let s := { alarmed with pending := [.byteError 1] }
    s.events.Sound ∧ ∃ t, step s = .next t :=
  ⟨by unfold EventUnit.Sound; decide +kernel, _, rfl⟩

/-! ### Witnesses: lanes -/

theorem test_lane_of_lane0 (k : Byte) (b : List Byte) (l : Lane) : (asked k b (lane0 l)).lane 0 = l := rfl

theorem test_witness_WrongLanesAndHandlesAreRefused :
    requestFrame (.laneQuery 7 [6]) = some (0x17, 7, [6]) ∧ Instr.laneQuery 7 [6] ≠ .unknownKind 0x17 7 [6] ∧
      (asked 0x17 [6] shop).holds 0x17 7 [6] ∧ lengthFits 0x17 ([6] : List Byte).length = true ∧ 6 ≤ field [6] 0 1 ∧
      requestFrame (.itemRemove 7 [0x07, 0xFF]) = some (0x23, 7, [0x07, 0xFF]) ∧
      (asked 0x23 [0x07, 0xFF] shop).holds 0x23 7 [0x07, 0xFF] ∧ lengthFits 0x23 2 = true ∧
      shop.item? (field [0x07, 0xFF] 0 2 % 2048) = none ∧
      shop.pool.generation (field [0x00, 0x00] 0 2 % 2048) ≠ field [0x00, 0x00] 0 2 / 2048 :=
  ⟨rfl, by decide, rfl, by decide, by decide, rfl, rfl, by decide, by decide, by decide⟩

/-- LANE_SETUP bodies at the edges of the ranges of R1. -/
def setupLow : List Byte := [0, 0x04, 0x28, 16, 0x07, 0x40, 0x00, 0x40, 3, 7, 255, 0x00, 0x00, 15, 1, 1, 1]
def setupHigh : List Byte := [5, 0x03, 0xB8, 128, 0x00, 0x00, 0x07, 0x80, 0, 0, 0, 0x07, 0x40, 0, 0, 0, 0]

abbrev setupGood (b : List Byte) (s : State) : Prop :=
  field b 1 2 ≤ 1079 ∧ 16 ≤ field b 3 1 ∧ field b 3 1 ≤ 128 ∧ field b 1 2 + field b 3 1 ≤ 1080 ∧
    field b 4 2 ≤ 1856 ∧ 64 ≤ field b 6 2 ∧ field b 6 2 ≤ 1920 ∧ field b 4 2 + field b 6 2 ≤ 1920 ∧
    field b 8 1 ≤ 3 ∧ field b 9 1 ≤ 7 ∧ field b 11 2 ≤ field b 6 2 - 64 ∧ field b 13 1 ≤ 15 ∧ field b 14 1 ≤ 1 ∧
    field b 15 1 ≤ 1 ∧ field b 16 1 ≤ 1 ∧ ∀ k : Fin 4, field b 8 1 = k.val → s.faces[k].height ≤ field b 3 1

theorem test_witness_LaneSetupIsCheckedAndTaken :
    (asked 0x10 setupLow State.reset).holds 0x10 7 setupLow ∧ setupLow.length = 17 ∧ setupHigh.length = 17 ∧
      field setupLow 0 1 = (0 : LaneId).val ∧ field setupHigh 0 1 = (5 : LaneId).val ∧
      (shop.lane 0).state ≠ .off ∧ (shop.lane 0).state ≠ .idle ∧ (State.reset.lane 5).state = .off ∧
      setupGood setupLow State.reset ∧ setupGood setupHigh State.reset ∧ ¬ setupGood (setupLow.set 16 2) State.reset ∧
      field setupLow 8 1 = (3 : Fin 4).val ∧ field setupLow 9 1 = (7 : Fin 8).val ∧
      field setupLow 13 1 = (15 : Fin 16).val := by
  refine ⟨rfl, rfl, rfl, by decide, by decide, by decide, by decide, rfl, ?_, ?_, ?_, by decide, by decide, by decide⟩
  · unfold setupGood; decide +kernel
  · unfold setupGood; decide +kernel
  · unfold setupGood; decide +kernel

theorem test_witness_LaneOffAndResetClearTheLane :
    let idle := lane0 { Lane.powerOn with state := .idle }
    (asked 0x11 [0] idle).holds 0x11 7 [0] ∧ ([0] : List Byte).length = 1 ∧ field [0] 0 1 = (0 : LaneId).val ∧
      (idle.lane 0).state = .idle ∧ (shop.lane 0).state ≠ .idle ∧
      (asked 0x16 [0] shop).holds 0x16 7 [0] ∧ (State.reset.lane 0).state = .off ∧ (shop.lane 0).state ≠ .off ∧
      shop.ListsAgree :=
  ⟨rfl, rfl, rfl, rfl, by decide, rfl, rfl, by decide, test_shop_lists_agree⟩

theorem test_witness_FreedItemsLeaveNoTrace :
    (∃ it code link, shop.item? 0 = some it ∧ it.content = .quote code link ∧ it.cell ≠ none) ∧
      (∃ it, shop.item? 1 = some it ∧ it.content = .text 7 ∧ it.cell = none) ∧ tableRising shop.pool.items = true ∧
      tableRising shop.pool.generations = true :=
  ⟨⟨_, _, _, rfl, rfl, by decide⟩, ⟨_, rfl, rfl, rfl⟩, by decide, by decide⟩

/-- A lane with the on-empty policy STOP. -/
def stopping (l : Lane) : Lane := { l with setup := { l.setup with onEmpty := .stop } }

/-- A lane ARMED on a condition. -/
def armed (c : ArmCondition) (returns : ReturnState) (met : Bool) : Lane :=
  { Lane.powerOn with state := .armed, arm := some { condition := c, returns := returns, met := met } }

theorem test_witness_LaneStartActsByState :
    let b : List Byte := [0, 0, 0, 0]
    let in_ := fun st : LaneState => asked 0x12 b (lane0 { Lane.powerOn with state := st })
    let ramping := { Lane.powerOn with state := .brake, brake := some .ramp }
    (∀ s : State, (asked 0x12 b s).holds 0x12 7 b) ∧ b.length = 4 ∧ field b 0 1 = (0 : LaneId).val ∧
      3 < field [0, 4, 0, 0] 1 1 ∧ field b 1 1 = 0 ∧ ((in_ .off).lane 0).state = .off ∧
      ((in_ .frozen).lane 0).state = .frozen ∧ ((in_ .held).lane 0).state = .held ∧
      ((asked 0x12 b (lane0 ramping)).lane 0).brake = some .ramp ∧ ((in_ .idle).lane 0).state = .idle ∧
      ((in_ .stopped).lane 0).state = .stopped ∧
      ((asked 0x12 b (lane0 (armed .sync .stopped false))).lane 0).arm =
        some { condition := .sync, returns := .stopped, met := false } ∧
      ((asked 0x12 b (lane0 (stopping Lane.powerOn))).lane 0).setup.onEmpty = .stop :=
  ⟨fun _ => rfl, rfl, rfl, by decide, by decide, rfl, rfl, rfl, rfl, rfl, rfl, rfl, rfl⟩

theorem test_witness_LanesAreArmedAndStart :
    let bad := fun b : List Byte => field b 1 1 = 1 ∧ 3 < field b 2 1 ∨
      field b 1 1 = 3 ∧ (field b 3 1 = 0 ∨ 63 < field b 3 1 ∨ (field b 3 1).testBit (0 : LaneId).val = true)
    (∀ b s, (asked 0x12 b s).holds 0x12 7 b) ∧ (shop.lane 0).state = .stopped ∧
      ((lane0 { Lane.powerOn with state := .idle }).lane 0).state = .idle ∧
      ((lane0 { Lane.powerOn with state := .held }).lane 0).state ≠ .idle ∧
      bad [0, 1, 4, 0] ∧ bad [0, 3, 0, 0] ∧ bad [0, 3, 0, 64] ∧ bad [0, 3, 0, 1] ∧
      (¬ bad [0, 1, 3, 0] ∧ field [0, 1, 3, 0] 1 1 = 1 ∧ field [0, 1, 3, 0] 2 1 = (3 : GpiId).val) ∧
      (¬ bad [0, 2, 0, 0] ∧ field [0, 2, 0, 0] 1 1 = 2) ∧ (¬ bad [0, 3, 0, 62] ∧ field [0, 3, 0, 62] 1 1 = 3) ∧
      ((lane0 (armed .sync .idle true)).lane 0).arm = some { condition := .sync, returns := .idle, met := true } ∧
      ((lane0 (stopping (armed .sync .idle true))).lane 0).setup.onEmpty = .stop ∧
      ((lane0 (armed .sync .idle false)).lane 0).arm.any (fun a => a.met) = false :=
  ⟨fun _ _ => rfl, rfl, rfl, by decide, by decide, by decide, by decide, by decide, by decide, by decide, by decide, rfl,
    rfl, rfl⟩

theorem test_witness_ComingToRestStartsTheLanesThatWaitForIt :
    let waits := State.reset.setLane 1 (armed (.stopOf 1) .idle false)
    (waits.lane 1).state = .armed ∧
      (waits.lane 1).arm = some { condition := .stopOf 1, returns := .idle, met := false } ∧
      (1 : LaneSet).getLsbD (0 : LaneId).val = true ∧
      (∀ n : LaneId, (1 : LaneSet).getLsbD n.val = true → (waits.lane n).state ≠ .run ∧ (waits.lane n).state ≠ .brake) ∧
      ¬ ((waits.lane 1).visible = [] ∧ (waits.lane 1).queued = [] ∧ (waits.lane 1).setup.onEmpty = .stop) ∧
      (waits.lane 2).state ≠ .armed ∧
      (∃ n : LaneId, (1 : LaneSet).getLsbD n.val = true ∧
        ((waits.setLane 0 { Lane.powerOn with state := .run }).lane n).state = .run) ∧
      (1 : LaneSet).getLsbD (3 : LaneId).val = false ∧ (2 : LaneSet).getLsbD (1 : LaneId).val = true ∧
      (0 : LaneSet).getLsbD (1 : LaneId).val = false ∧
      (let l := stopping (armed (.stopOf 1) .idle false)
       l.visible = [] ∧ l.queued = [] ∧ l.setup.onEmpty = .stop) := by
  refine ⟨rfl, rfl, ?_⟩
  decide

theorem test_coming_to_rest_drains_an_empty_lane :
    let waits := State.reset.setLane 1 (stopping (armed (.stopOf 1) .stopped false))
    ((waits.comesToRest 0 0).lane 1).state = .stopped ∧
      ((waits.comesToRest 2 0).lane 1).arm = some { condition := .stopOf 1, returns := .stopped, met := true } := by decide

theorem test_witness_LaneStopFollowsItsTable :
    let in_ := fun (m : Byte) (l : Lane) => asked 0x13 [0, m] (lane0 l)
    let ramping := { Lane.powerOn with state := .brake, brake := some .ramp, velocity := 5 }
    (∀ m l, (in_ m l).holds 0x13 7 [0, m] ∧ (in_ m l).lane 0 = l) ∧ field [0, 3] 0 1 = (0 : LaneId).val ∧
      2 < field [0, 3] 1 1 ∧ field [0, 2] 1 1 = 2 ∧ field [0, 1] 1 1 = 1 ∧ field [0, 0] 1 1 = 0 ∧
      Lane.powerOn.state = .off ∧ (armed .sync .idle false).state = .armed ∧
      (armed .sync .idle false).arm = some { condition := .sync, returns := .idle, met := false } ∧
      (braking .run 256 100).state = .run ∧ (braking .run 256 100).brake ≠ some .ramp ∧
      (braking .run 256 100).clearing = false ∧ ramping.state = .brake ∧ ramping.brake = some .ramp ∧
      { ramping with clearing := true }.clearing = true ∧ (braking .held 0 100).state = .held :=
  ⟨fun _ _ => ⟨rfl, rfl⟩, by decide, by decide, by decide, by decide, by decide, rfl, rfl, rfl, rfl, by decide, rfl, rfl,
    rfl, rfl, rfl⟩

theorem test_witness_SpeedsAreHeldAndStaged :
    (asked 0x14 [0, 0x10, 0x00, 0, 0] shop).holds 0x14 7 [0, 0x10, 0x00, 0, 0] ∧
      (asked 0x15 [0, 0, 0, 0, 0] shop).holds 0x15 7 [0, 0, 0, 0, 0] ∧ field [0, 0, 0, 0, 0] 0 1 = (0 : LaneId).val ∧
      (State.reset.lane 0).state = .off ∧ (shop.lane 0).state ≠ .off ∧ field [0, 0, 0, 0, 0] 3 2 = 0 ∧
      4095 < field [0, 0x10, 0x00, 0, 1] 1 2 ∧ field [0, 0x10, 0x00, 0, 1] 3 2 ≠ 0 ∧ 1023 < field [0, 0, 0, 0x04, 0x00] 3 2 ∧
      field [0, 0x0F, 0xFF, 0x03, 0xFF] 1 2 ≤ 4095 ∧ field [0, 0x0F, 0xFF, 0x03, 0xFF] 3 2 ≤ 1023 :=
  ⟨rfl, rfl, by decide, rfl, by decide, by decide, by decide, by decide, by decide, by decide, by decide⟩

theorem test_witness_HoldsEndInRun :
    let held := fun d => lane0 { Lane.powerOn with state := .held, dwell := d }
    (asked 0x30 [0] (held 1)).holds 0x30 7 [0] ∧ field [0] 0 1 = (0 : LaneId).val ∧ ((held 1).lane 0).state = .held ∧
      ((held 1).lane 0).dwell ≤ 1 ∧ 1 < ((held 2).lane 0).dwell ∧ (State.reset.lane 0).state ≠ .held :=
  ⟨rfl, by decide, rfl, by decide, by decide, by decide⟩

/-! ### Witnesses: motion -/

theorem test_power_on_set_up_is_sound : LaneSetup.powerOn.Sound :=
  ⟨by decide, by decide, by decide, by decide, by decide⟩

theorem test_braking_lane_is_sound (distance : Nat) (h : 0 < distance) (h' : distance ≤ Config.maxTravel) :
    (braking .run 256 distance).Sound := by
  refine ⟨test_power_on_set_up_is_sound, by simp [braking, Lane.powerOn],
    by simp [braking, Lane.powerOn], by simp [braking], by simp [braking], by simp [braking], by simp [braking, Lane.powerOn],
    by simp [braking], by simp [braking], by simp [braking, Lane.powerOn], by simp [braking, Lane.powerOn],
    by simpa [braking, Lane.powerOn] using ⟨h, h'⟩, by simp [braking], by simp [braking, Lane.powerOn]⟩

theorem test_witness_BrakingDistanceIsTheSumOfTheSteps : 1 ≤ 4095 ∧ 1 ≤ 1 ∧ 1023 ≤ 1023 := by decide

theorem test_witness_StepsStopAtTargetsAndLandOnThem :
    (braking .run 256 Config.maxTravel).Sound ∧ (braking .run 256 Config.maxTravel).state = .run ∧
      (braking .run 256 1).targets = { travel := 1, kind := .hold 150 } :: [] ∧
      (let l := { braking .run 256 5 with travel := 5 }
       (∀ k, { travel := l.travel, kind := .stop k } ∉ l.targets) ∧
        ∃ d, { travel := l.travel, kind := .hold d } ∈ l.targets) ∧
      (let l := { Lane.powerOn with travel := 5, targets := [{ travel := 5, kind := .stop 3 }] }
       ∃ k, { travel := l.travel, kind := .stop k } ∈ l.targets) :=
  ⟨test_braking_lane_is_sound _ (by decide) (Nat.le_refl _), rfl, rfl,
    ⟨by simp [braking], 150, by simp [braking]⟩, 3, by simp⟩

theorem test_witness_steps_of_every_kind :
    let ramping := { braking .brake 64 100 with brake := some .ramp, targets := [] }
    ramping.Sound ∧ ramping.accel < ramping.velocity ∧ { ramping with velocity := 32 }.velocity ≤ ramping.accel ∧
      { braking .run 256 9 with targets := [] }.brake ≠ some .ramp ∧
      (let l := braking .run 256 1152
       256 + brakingDistance 256 l.accel ≤ 1152 - l.travel ∧ ¬ 256 + brakingDistance 256 l.accel ≤ 1151 - l.travel) :=
  ⟨⟨test_power_on_set_up_is_sound, by decide, by decide, by decide, by decide, by decide, by simp [braking, Lane.powerOn],
    by simp [braking], by simp [braking], by simp [braking, Lane.powerOn], by simp [braking, Lane.powerOn], by simp, by simp,
    by decide⟩, by decide, by decide, by decide, by decide⟩

/-- Lane 0 at full speed close before the stop target of cue 2 and a hold target; the cue pulses lane 1, and lane 2 waits for
lane 0 to rest. -/
def landing : State :=
  { ((State.reset.setLane 0 { braking .run 256 100 with
      targets := [{ travel := 100, kind := .hold 9 }, { travel := 100, kind := .stop 2 }]
      cues := Lane.powerOn.cues.set 2 { Cue.powerOn with action := .stopAt, value := 100, syncMask := 2, armed := true }
      }).setLane 1 (armed .sync .idle false)).setLane 2 (armed (.stopOf 1) .idle false) with
    events := { EventUnit.powerOn with groups := EventUnit.powerOn.groups.map fun g => { g with enable := 0x1FFF } } }

/-- R12 and R13: HOLD_REACHED, CUE2, STOPPED and SHORT_BRAKE; lanes 1 and 2 start. -/
theorem test_a_landing_raises_all_its_factors :
    let t := landing.stepPart 0
    (stepLane (landing.lane 0)).reached = true ∧ t.events.groups[(2 : GroupId)].pending = 0x208A ∧
      (t.lane 0).state = .stopped ∧ (t.lane 0).cues[2].armed = false ∧ (t.lane 1).state = .run ∧
      (t.lane 2).state = .run := by decide +kernel

/-- The mask of all the pulses of that landing is that of cue 2. -/
theorem test_witness_pulses_of_a_landing :
    let stop := fun k : CueId => ({ travel := 100, kind := .stop k } : Target) ∈ (landing.lane 0).targets
    (stepLane (landing.lane 0)).lane.travel = 100 ∧ (∀ j : LaneId, (2 : LaneSet).getLsbD j.val = true ↔
      ∃ k, stop k ∧ (landing.lane 0).cues[k].syncMask.getLsbD j.val = true) := by decide +kernel

theorem test_witness_a_ramp_ends :
    let r := stepLane { braking .brake 32 100 with brake := some .ramp }
    r.reached = false ∧ r.lane.state = .stopped ∧ (stepLane (braking .brake 64 100)).reached = false := by decide

theorem test_witness_RoomToBrakeIsKept :
    (braking .run 256 896).Sound ∧ (braking .run 256 896).targets = [{ travel := 896, kind := .hold 150 }] ∧
      (braking .run 256 896).state = .run ∧
      brakingDistance (braking .run 256 896).velocity (braking .run 256 896).accel ≤ 896 - (braking .run 256 896).travel :=
  ⟨test_braking_lane_is_sound _ (by decide) (by decide), rfl, rfl, by decide⟩

/-- Lane 0 in RUN at a travel: two QUOTEs queued, or visible, of one symbol that has a price or none. -/
def travelling (price : Option Nat) (passes travel : Nat) (fault : FaultPolicy) (shown : Bool) : State :=
  let c : Cell := { entry := 64, width := 180, rendering := .quote [], style := .flat, flash := 0, flashDir := .up,
                    forcedStale := false }
  let it : Item := { queuedMark 0 180 with
    content := .quote [0x41] 3, passes := passes, holdDwell := some 9, cell := if shown then some c else none }
  let l := { Lane.powerOn with state := .run, travel := travel, setup := { LaneSetup.powerOn with fault := fault } }
  { lane0 (if shown then { l with visible := [0, 1] } else { l with queued := [0, 1] }) with
    pool := { items := [(0, it), (1, it)], generations := [(0, 3)] }
    symbols := [(3, { code := [0x41], cls := 0, decimals := 0, price := price, previous := none, reference := none
                      lastSeq := none, halted := false, stale := false, lastUpdate := 0, refCount := 2
                      viewList := if shown then [0, 1] else [] })] }

/-- No item may enter the lane. -/
abbrev shut (l : Lane) : Prop :=
  l.clearing = true ∨ l.travel < l.nextEntry ∨ 2 ^ 48 - 1 ≤ l.travel ∨ 64 ≤ l.visible.length

theorem test_witness_ItemsEnterAndRetireByTheTravel :
    let s := travelling none 1 0 .skip false
    let l := s.lane 0
    (State.reset.lane 0).queued = [] ∧ (State.reset.lane 0).visible = [] ∧ l.queued = 0 :: [1] ∧ 0 ∉ [1] ∧ 0 ∉ l.visible ∧
      (s.item? 0).map (fun it => (it.lane, it.cell, it.passes, it.content)) = some (0, none, 1, .quote [0x41] 3) ∧
      ¬ shut l ∧ shut { l with clearing := true } ∧ shut { l with nextEntry := 1 } ∧ shut { l with travel := 2 ^ 48 - 1 } ∧
      shut { l with visible := List.range 64 } ∧ ¬ shut { l with visible := List.range 63 } ∧
      (s.symbol? 3).map SymbolRec.price = some none ∧ l.setup.fault = .skip ∧
      ((travelling none 0 0 .skip false).item? 0).map Item.passes = some 0 ∧
      ((travelling none 0 0 .blank false).lane 0).setup.fault = .blank ∧
      ((travelling (some 5) 0 0 .skip false).symbol? 3).map SymbolRec.price = some (some 5) := by decide

theorem test_witness_a_visible_item_crosses :
    let s := fun travel passes => travelling none passes travel .skip true
    ((s 0 0).lane 0).visible = 0 :: [1] ∧ 0 ∉ [1] ∧ 0 ∉ ((s 0 0).lane 0).queued ∧
      ((s 0 1).item? 0).map (fun it => (it.lane, it.passes, it.cell.map fun c => (c.entry, c.width))) =
        some (0, 1, some (64, 180)) ∧
      ((s 134463 1).lane 0).travel - 64 < (((s 134463 1).lane 0).setup.width + 180) * 64 ∧
      (((s 134464 2).lane 0).setup.width + 180) * 64 ≤ ((s 134464 2).lane 0).travel - 64 := by decide

theorem test_entry_run_meets_agreeing_lists : shop.ListsAgree ∧ (shop.lane 0).queued.length = 1 :=
  ⟨test_shop_lists_agree, rfl⟩

/-- R41: under SKIP with one pass left both unpriced quotes are freed; under BLANK both enter, the second behind the first
(R40), and join the view list in that order (R90). -/
theorem test_unpriced_quotes_of_R41 :
    ((travelling none 1 0 .skip false).entryPart 0 0).state.pool.items = [] ∧
      (let t := ((travelling none 1 0 .blank false).entryPart 0 0).state
       (t.lane 0).visible = [0] ∧ (t.symbol? 3).map SymbolRec.viewList = some [0]) ∧
      (let t := ((travelling (some 5) 0 12544 .skip false).entryPart 0 0).state
       (t.lane 0).visible = [0, 1] ∧ (t.symbol? 3).map SymbolRec.viewList = some [0, 1]) := by decide

/-- R36 and R37: both quotes have crossed, and are re-appended in the order they retired. -/
theorem test_two_retire_in_one_advance :
    let t := (travelling none 3 134464 .skip true).retirePart 0
    (t.lane 0).visible = [] ∧ (t.lane 0).queued = [0, 1] ∧ (t.item? 1).map Item.passes = some 2 := by decide

theorem test_witness_LaneMotionStaysSound :
    let s := { lane0 (braking .run 256 100) with pending := [.framePeriodExpiry []] }
    (∀ i, (s.lane i).Sound) ∧ ∃ t, step s = .next t := by
  refine ⟨fun i => ?_, _, rfl⟩
  by_cases h : i = 0
  · subst h; exact test_braking_lane_is_sound 100 (by decide) (by decide)
  · have : (lane0 (braking .run 256 100)).lane i = Lane.powerOn := by revert i; decide
    exact this ▸ ⟨test_power_on_set_up_is_sound, by decide, by decide, by decide, by decide,
      by decide, by simp [Lane.powerOn], by decide, by decide, by decide, by decide, by decide, by decide, by decide⟩

/-! ### Witnesses: items and run lists -/

/-- The first n numbers, all with one record. -/
def filled {α : Type} (n : Nat) (x : α) : Table α := (List.range n).map fun k => (k, x)

theorem test_find_in_a_row {α : Type} (l : List Nat) (f : Nat → α) (j : Nat) :
    tableFind (l.map fun k => (k, f k)) j = if j ∈ l then some (f j) else none := by
  induction l with
  | nil => rfl
  | cons a l ih =>
    by_cases h : a = j
    · simp [tableFind, h]
    · simp [tableFind, h, ih, Ne.symm h]

theorem test_filled_table_has_no_free_place {α : Type} (n : Nat) (x : α) :
    tableRising (filled n x) = true ∧ ∀ j, j < n → tableFind (filled n x) j ≠ none :=
  ⟨by simpa [tableRising, filled, Function.comp_def] using List.pairwise_lt_range,
    fun j hj => by simp [filled, test_find_in_a_row (List.range n) fun _ => x, hj]⟩

/-- The fields of ITEM_APPEND from the kind on: kind, first content byte, minimum width, ink. -/
def appendBody (kind first : Byte) (width : Nat) (ink : Byte) : List Byte :=
  [0, kind, first, 0x51, 0x57, 0x20, 0x20, 0x20, 0x20, 0x20, 3, 0, 9] ++ be 2 width ++ [ink]

theorem test_witness_ItemsAreAppended :
    let bad := fun b : List Byte => 2 < field b 1 1 ∨ 4095 < field b 13 2 ∨ 15 < field b 15 1
    (∀ s, (asked 0x20 (appendBody 0 0x5A 4095 15) s).holds 0x20 7 (appendBody 0 0x5A 4095 15)) ∧
      (appendBody 0 0x5A 4095 15).length = 16 ∧ field (appendBody 0 0x5A 4095 15) 0 1 = (0 : LaneId).val ∧
      tableRising shop.pool.items = true ∧ (State.reset.lane 0).state = .off ∧ (shop.lane 0).state ≠ .off ∧
      bad (appendBody 3 0 0 0) ∧ bad (appendBody 0 0 4096 0) ∧ bad (appendBody 0 0 0 16) ∧
      ¬ bad (appendBody 0 0x5A 4095 15) ∧ findCode shop.symbols (fieldBytes (appendBody 0 0x59 0 0) 2 8) = none ∧
      (∃ link r, findCode shop.symbols (fieldBytes (appendBody 0 0x5A 4095 15) 2 8) = some (link, r)) ∧
      shop.text? (field (appendBody 1 8 0 0) 2 1) = none ∧ shop.text? (field (appendBody 1 7 0 0) 2 1) ≠ none ∧
      field (appendBody 2 0xFF 0 0) 1 1 = 2 ∧ shop.item? 2 = none ∧ (∀ j, j < 2 → shop.item? j ≠ none) ∧
      field (appendBody 0 0x5A 4095 15) 15 1 = (15 : Fin 16).val :=
  ⟨fun _ => rfl, by decide, by decide, by decide, rfl, by decide, by decide, by decide, by decide, by decide, by decide,
    ⟨3, _, rfl⟩, by decide, by decide, by decide, by decide, by decide, by decide⟩

/-- With n = 2,048: a full pool. -/
theorem test_witness_full_pool (n : Nat) :
    let s := { shop with pool := { shop.pool with items := filled n (queuedMark 0 0) } }
    tableRising s.pool.items = true ∧ ∀ j, j < n → s.item? j ≠ none :=
  test_filled_table_has_no_free_place n (queuedMark 0 0)

theorem test_witness_ItemsAreInserted :
    let b := fun (p : Nat) (kind : Byte) => be 2 p ++ appendBody kind 0x5A 4095 15
    let two := shop.setLane 0 { shop.lane 0 with visible := [0, 9] }
    (∀ p k s, (asked 0x21 (b p k) s).holds 0x21 7 (b p k)) ∧ (b 0xFFFF 0).length = 18 ∧
      6 ≤ field (be 2 0 ++ 6 :: (appendBody 0 0x5A 0 0).drop 1) 2 1 ∧
      findCode shop.symbols (fieldBytes (be 2 0 ++ appendBody 0 0x59 0 0) 4 8) = none ∧
      field (be 2 0 ++ appendBody 0 0x59 0 0) 3 1 = 0 ∧ field (be 2 0 ++ appendBody 1 8 0 0) 3 1 = 1 ∧
      shop.text? (field (be 2 0 ++ appendBody 1 8 0 0) 4 1) = none ∧
      findCode shop.symbols (fieldBytes (b 0xFFFF 0) 4 8) ≠ none ∧
      shop.text? (field (be 2 0 ++ appendBody 1 7 0 0) 4 1) ≠ none ∧ field (b 0xFFFF 2) 3 1 = 2 ∧
      field (b 0xFFFF 0) 2 1 = (0 : LaneId).val ∧ 2 < field (b 0 3) 3 1 ∧ field (b 0xFFFF 0) 0 2 = 0xFFFF ∧
      shop.item? (field (b 5 0) 0 2 % 2048) = none ∧
      shop.pool.generation (field (b 0xF801 0) 0 2 % 2048) ≠ field (b 0xF801 0) 0 2 / 2048 ∧
      ((shop.updItem 1 fun it => { it with lane := 1 }).item? (field (b 1 0) 0 2 % 2048)).map Item.lane ≠ some 0 ∧
      ((shop.item? (field (b 0xF800 0) 0 2 % 2048)).bind Item.cell) ≠ none ∧
      shop.pool.generation (field (b 0xF800 0) 0 2 % 2048) = field (b 0xF800 0) 0 2 / 2048 ∧
      (two.lane 0).visible.getLast? ≠ some (field (b 0xF800 0) 0 2 % 2048) ∧
      (shop.lane 0).visible.getLast? = some (field (b 0xF800 0) 0 2 % 2048) ∧
      shop.pool.generation (field (b 1 0) 0 2 % 2048) = field (b 1 0) 0 2 / 2048 ∧
      ((shop.item? (field (b 1 0) 0 2 % 2048)).map Item.cell) = some none ∧
      (shop.lane 0).queued = [] ++ field (b 1 0) 0 2 % 2048 :: [] := by
  refine ⟨fun _ _ _ => rfl, ?_⟩
  decide

theorem test_witness_ItemsAreChangedByHandle :
    (asked 0x24 [0xF8, 0x00, 255] shop).holds 0x24 7 [0xF8, 0x00, 255] ∧
      (asked 0x23 [0xF8, 0x00] shop).holds 0x23 7 [0xF8, 0x00] ∧
      field [0xF8, 0x00] 0 2 = shop.pool.generation 0 * 2048 + 0 ∧ field [0x00, 0x01] 0 2 = shop.pool.generation 1 * 2048 + 1 ∧
      (∃ it, shop.item? 0 = some it ∧ it.cell ≠ none) ∧ (∃ it, shop.item? 1 = some it ∧ it.cell = none) ∧
      (let b : Byte → Byte → Byte → List Byte :=
        fun kind first ink => [0x00, 0x01, kind, first, 0x51, 0x57, 0x20, 0x20, 0x20, 0x20, 0x20, ink]
       (asked 0x22 (b 0 0x5A 15) shop).holds 0x22 7 (b 0 0x5A 15) ∧ (b 0 0x5A 15).length = 12 ∧ 2 < field (b 3 0 0) 2 1 ∧
        15 < field (b 0 0 16) 11 1 ∧ findCode shop.symbols (fieldBytes (b 0 0x59 0) 3 8) = none ∧
        shop.text? (field (b 1 8 0) 3 1) = none ∧ shop.text? (field (b 1 7 0) 3 1) ≠ none ∧
        field (b 0 0x5A 15) 11 1 = (15 : Fin 16).val) :=
  ⟨rfl, rfl, by decide, by decide, ⟨_, rfl, by decide⟩, ⟨_, rfl, rfl⟩, rfl, rfl, by decide, by decide, by decide, by decide,
    by decide, by decide⟩

theorem test_witness_RunClearFreesTheQueuedItems :
    (asked 0x25 [0] shop).holds 0x25 7 [0] ∧ field [0] 0 1 = (0 : LaneId).val ∧ (shop.lane 0).queued = [1] ∧
      shop.ListsAgree := ⟨rfl, by decide, rfl, test_shop_lists_agree⟩

theorem test_witness_RunListsAndPoolAgree :
    let s := { shop with pending := [.runClear 7 [0]] }
    s.ListsAgree ∧ s.ReferencesAgree ∧ ∃ t, step s = .next t := by
  have h := test_shop_lists_agree
  have r := test_shop_references_agree
  exact ⟨⟨h.rising, h.slots, h.once, h.visible, h.queued, h.listed, h.bare, h.off⟩,
    ⟨r.symbols, r.texts, r.quotes, r.captions, r.cells, r.symbolCount, r.textCount, r.inView, r.views, r.once, r.queue,
      r.inFlight⟩, _, rfl⟩

/-- R43 and R90: an item that enters joins the view list, and one that is appended is counted. -/
theorem test_an_appended_quote_is_counted :
    let t := after (.itemAppend 7 ([0, 0] ++ priceBody.take 8 ++ [1, 0, 0, 0, 0, 0])) shop
    (t.symbol? 3).map SymbolRec.refCount = some 2 ∧ (t.symbol? 3).map SymbolRec.viewList = some [0] := by decide +kernel

/-! ### Witnesses: cues and queries -/

/-- A CUE_SET body of lane 0. -/
def cueBody (cue source method : Byte) (value : Nat) (action mask repeats : Byte) : List Byte :=
  [0, cue, source, method] ++ be 6 value ++ [action, mask, repeats]

/-- The checks 3 of R64. -/
abbrev cueBad (b : List Byte) : Prop :=
  3 < field b 2 1 ∨ 1 < field b 3 1 ∨ 4 < field b 10 1 ∨ 63 < field b 11 1 ∨ 1 < field b 12 1 ∨
    field b 12 1 = 1 ∧ field b 2 1 ≠ 3 ∨ (field b 2 1 = 1 ∨ field b 2 1 = 2) ∧ 2 ^ 32 - 1 < field b 4 6 ∨
    field b 2 1 = 3 ∧ 0xFFFF < field b 4 6 ∨ field b 10 1 = 3 ∧ (field b 2 1 ≠ 0 ∨ field b 3 1 ≠ 0)

/-- A lane with cue 3 ARMED on STOP_AT. -/
def cued : Lane :=
  { Lane.powerOn with
    state := .stopped, targets := [{ travel := 9, kind := .stop 3 }]
    cues := (Vector.replicate 4 Cue.powerOn).set 3 { Cue.powerOn with value := 9, action := .stopAt, armed := true } }

theorem test_witness_CuesAreSetAndCleared :
    (∀ b s, (asked 0x31 b s).holds 0x31 7 b ∧ (asked 0x32 b s).holds 0x32 7 b) ∧
      (cueBody 3 0 0 1 3 63 0).length = 13 ∧ field (cueBody 3 0 0 1 3 63 0) 0 1 = (0 : LaneId).val ∧
      field (cueBody 3 0 0 1 3 63 0) 1 1 = (3 : CueId).val ∧ 3 < field (cueBody 4 0 0 0 0 0 0) 1 1 ∧
      (State.reset.lane 0).state = .off ∧ (shop.lane 0).state ≠ .off := by
  refine ⟨fun _ _ => ⟨rfl, rfl⟩, ?_⟩
  decide

theorem test_witness_cue_checks :
    cueBad (cueBody 0 4 0 0 0 0 0) ∧ cueBad (cueBody 0 0 2 0 0 0 0) ∧ cueBad (cueBody 0 0 0 0 5 0 0) ∧
      cueBad (cueBody 0 0 0 0 0 64 0) ∧ cueBad (cueBody 0 0 0 0 0 0 2) ∧ cueBad (cueBody 0 0 0 0 0 0 1) ∧
      cueBad (cueBody 0 1 0 (2 ^ 32) 0 0 0) ∧ cueBad (cueBody 0 3 0 0x10000 0 0 0) ∧ cueBad (cueBody 0 1 0 5 3 0 0) ∧
      cueBad (cueBody 0 0 1 5 3 0 0) := by
  refine ⟨?_, ?_, ?_, ?_, ?_, ?_, ?_, ?_, ?_, ?_⟩ <;> decide

theorem test_witness_cue_of_an_item :
    ¬ cueBad (cueBody 0 3 0 0xFFFF 0 0 1) ∧ shop.item? (0xFFFF % 2048) = none ∧ ¬ cueBad (cueBody 0 3 0 1 0 0 1) ∧
      field (cueBody 0 3 0 1 0 0 1) 4 6 = 1 ∧
      ¬ (shop.item? (1 % 2048) = none ∨ shop.pool.generation (1 % 2048) ≠ 1 / 2048) ∧
      (∃ it, (shop.updItem 1 fun it => { it with lane := 5 }).item? (1 % 2048) = some it ∧ it.lane ≠ 0) :=
  ⟨by decide, by decide, by decide, by decide, by decide, _, rfl, by decide⟩

theorem test_witness_cue_passed_and_taken :
    ¬ cueBad (cueBody 3 0 0 0 3 63 0) ∧ field (cueBody 3 0 0 0 3 63 0) 4 6 ≤ (shop.lane 0).travel ∧
      ¬ cueBad (cueBody 0 1 1 0 0 0 0) ∧ field (cueBody 0 1 1 0 0 0 0) 4 6 ≤ (shop.lane 0).entries.toNat ∧
      ¬ cueBad (cueBody 3 0 0 1 3 63 0) ∧ ¬ (field (cueBody 3 0 0 1 3 63 0) 4 6 ≤ (shop.lane 0).travel) ∧
      field (cueBody 3 0 0 1 3 63 0) 3 1 ≠ 1 ∧ field (cueBody 3 0 0 1 3 63 0) 2 1 ≠ 3 := by decide

theorem test_witness_cue_record_of_a_body :
    let b := cueBody 3 0 0 1 3 63 0
    let c : Cue := { source := .travel, method := .reach, value := 1, action := .stopAt, syncMask := 63, repeats := false,
                     armed := true }
    c.source.code = field b 2 1 ∧ c.method.code = field b 3 1 ∧ c.value = field b 4 6 ∧ c.action.code = field b 10 1 ∧
      c.syncMask = BitVec.ofNat 6 (field b 11 1) ∧ c.repeats = decide (field b 12 1 = 1) ∧ cued.cues[3].armed = true ∧
      cued.cues[3].action = .stopAt ∧ cued.cues[2].armed = false := by decide

theorem test_witness_cue_conditions :
    let v : CueView := { travelBefore := 50000, travelAfter := 50128, entriesBefore := 39, entriesAfter := 40
                         runBefore := 0xFFFFFFFF, entered := [5] }
    let c := fun s m => { Cue.powerOn with source := s, method := m }
    (c .itemEntry .reach).source = .itemEntry ∧ ((c .travel .reach).source = .travel ∧ 50000 = v.travelBefore ∧
      50128 = v.travelAfter) ∧ ((c .entries .cross).source = .entries ∧ 39 = v.entriesBefore.toNat ∧
        40 = v.entriesAfter.toNat) ∧
      ((c .runFrames .cross).source = .runFrames ∧ 0xFFFFFFFF = v.runBefore.toNat ∧ 0 = (v.runBefore.toNat + 1) % 2 ^ 32) ∧
      (c .travel .reach).method = .reach ∧ (c .entries .cross).method = .cross := by decide

theorem test_witness_CuesMatchAndAct :
    let v : CueView := { travelBefore := 50000, travelAfter := 50128, entriesBefore := 39, entriesAfter := 40, runBefore := 0
                         entered := [] }
    let l := twoCues.lane 0
    l.state ≠ .armed ∧ v.hits l.cues[(0 : CueId)] = true ∧ v.hits l.cues[(1 : CueId)] = true ∧
      v.hits l.cues[(2 : CueId)] = false ∧ l.cues[(0 : CueId)].action = .loadStaged ∧ l.staged ≠ none ∧
      l.cues[(1 : CueId)].action = .stopRamp ∧ l.state = .run ∧ l.brake ≠ some .ramp ∧
      (∀ j : LaneId, (0x10 : LaneSet).getLsbD j.val = true ↔
        ∃ k : CueId, v.hits l.cues[k] = true ∧ l.cues[k].syncMask.getLsbD j.val = true) ∧
      (twoCues.lane 4).state = .armed ∧ (twoCues.lane 4).queued ≠ [] ∧
      (twoCues.lane 4).arm = some { condition := .sync, returns := .idle, met := false } ∧
      (let stopping := fun state => { l with state := state, cues := l.cues.set 1 { l.cues[1] with action := .stopNow } }
       v.hits (stopping .held).cues[(1 : CueId)] = true ∧ (stopping .held).cues[(1 : CueId)].action = .stopNow ∧
        (stopping .held).state = .held ∧ (stopping .stopped).state ≠ .held) ∧
      (let empty := stopping (armed .sync .stopped false)
       empty.visible = [] ∧ empty.queued = [] ∧ empty.setup.onEmpty = .stop) := by decide

theorem test_witness_LaneAndItemQueriesReport :
    (asked 0x17 [0] shop).holds 0x17 7 [0] ∧ (asked 0x27 [0, 0xFF, 0xFF] shop).holds 0x27 7 [0, 0xFF, 0xFF] ∧
      (asked 0x33 [0, 3] shop).holds 0x33 7 [0, 3] ∧ field [0, 3] 1 1 = (3 : CueId).val ∧ 3 < field [0, 4] 1 1 ∧
      (asked 0x26 [0xF8, 0x00] shop).holds 0x26 7 [0xF8, 0x00] ∧
      (∃ it code link c, shop.item? 0 = some it ∧ it.lane = 0 ∧ it.content = .quote code link ∧ it.cell = some c) ∧
      (∃ it, shop.item? 1 = some it ∧ it.content = .text 7 ∧ it.cell = none) ∧
      (∃ code, (queuedMark 0 0).content = .mark code) ∧ field [0xF8, 0x00] 0 2 = shop.pool.generation 0 * 2048 + 0 :=
  ⟨rfl, rfl, rfl, by decide, by decide, rfl, ⟨_, _, _, _, rfl, rfl, rfl, rfl⟩, ⟨_, rfl, rfl, rfl⟩, ⟨_, rfl⟩, by decide⟩

/-! ### Witnesses: symbols -/

/-- A SYM_DEFINE body. -/
def defineBody (code : List Byte) (cls decimals : Byte) (reference : Nat) : List Byte :=
  code ++ [cls, decimals] ++ be 4 reference

/-- A valid code (R76). -/
def ValidCode (code : List Byte) : Prop :=
  ∃ chars : List Byte, chars ≠ [] ∧ chars.length ≤ 8 ∧ code = chars ++ List.replicate (8 - chars.length) 0x20 ∧
    ∀ c ∈ chars, 0x41 ≤ c.toNat ∧ c.toNat ≤ 0x5A ∨ 0x30 ≤ c.toNat ∧ c.toNat ≤ 0x39 ∨ c = 0x2E ∨ c = 0x2D ∨ c = 0x2F

theorem test_valid_codes_at_the_edges :
    ValidCode [0x41, 0x20, 0x20, 0x20, 0x20, 0x20, 0x20, 0x20] ∧ ValidCode [0x5A, 0x30, 0x39, 0x2E, 0x2D, 0x2F, 0x41, 0x42] ∧
      ¬ ValidCode (List.replicate 8 0x20) := by
  refine ⟨⟨[0x41], by decide, by decide, by decide, by decide⟩,
    ⟨[0x5A, 0x30, 0x39, 0x2E, 0x2D, 0x2F, 0x41, 0x42], by decide, by decide, by decide, by decide⟩, ?_⟩
  rintro ⟨chars, hne, -, heq, hc⟩
  cases chars with
  | nil => exact hne rfl
  | cons c cs =>
    have h : (0x20 : Byte) = c := (List.cons.inj heq).1
    exact absurd (hc c (by simp)) (by rw [← h]; decide)

theorem test_witness_SymbolsAreDefinedAndRemoved :
    let code : List Byte := [0x41, 0x20, 0x20, 0x20, 0x20, 0x20, 0x20, 0x20]
    (∀ b s, (asked 0x40 b s).holds 0x40 7 b ∧ (asked 0x45 b s).holds 0x45 7 b) ∧ tableRising shop.symbols = true ∧
      (defineBody code 7 6 999999999).length = 14 ∧ fieldBytes (defineBody code 7 6 999999999) 0 8 = code ∧
      7 < field (defineBody code 8 0 0) 8 1 ∧ 6 < field (defineBody code 0 7 0) 9 1 ∧
      999999999 < field (defineBody code 0 0 1000000000) 10 4 ∧ field (defineBody code 0 0 0xFFFFFFFF) 10 4 = 0xFFFFFFFF ∧
      findCode shop.symbols (fieldBytes (defineBody (priceBody.take 8) 0 0 0) 0 8) ≠ none ∧
      findCode shop.symbols code = none ∧ shop.symbol? 0 = none ∧ field (defineBody code 7 6 0) 8 1 = (7 : Fin 8).val ∧
      (∃ slot r, findCode shop.symbols (priceBody.take 8) = some (slot, r) ∧ 0 < r.refCount) ∧
      (∃ slot r, findCode (session false).symbols (priceBody.take 8) = some (slot, r) ∧ r.refCount = 0) :=
  ⟨fun _ _ => ⟨rfl, rfl⟩, by decide, by decide, by decide, by decide, by decide, by decide, by decide, by decide, by decide,
    by decide, by decide, ⟨_, _, rfl, by decide⟩, ⟨_, _, rfl, rfl⟩⟩

/-- With n = 1,024: a full Symbol Table. -/
theorem test_witness_full_symbol_table (n : Nat) (r : SymbolRec) :
    let s := { State.reset with symbols := filled n r }
    tableRising s.symbols = true ∧ ∀ j, j < n → s.symbol? j ≠ none :=
  test_filled_table_has_no_free_place n r

theorem test_witness_PriceUpdatesFollowTheirSequence :
    (asked 0x41 priceBody (session false)).holds 0x41 7 priceBody ∧ priceBody.length = 14 ∧
      tableRising (session false).symbols = true ∧ findCode State.reset.symbols (fieldBytes priceBody 0 8) = none ∧
      (∃ r, findCode (session true).symbols (fieldBytes priceBody 0 8) = some (3, r) ∧ r.halted = true) ∧
      (∃ r, findCode (session false).symbols (fieldBytes priceBody 0 8) = some (3, r) ∧ r.halted = false ∧
        r.lastSeq = some 65534) ∧ 999999999 < field (priceBody.take 10 ++ be 4 1000000000) 10 4 ∧
      field (priceBody.take 10 ++ be 4 999999999) 10 4 ≤ 999999999 ∧
      (1 ≤ (field priceBody 8 2 + 65536 - 65534) % 65536 ∧ (field priceBody 8 2 + 65536 - 65534) % 65536 ≤ 32767) ∧
      ¬ (1 ≤ (65534 + 65536 - 65534) % 65536) ∧ (32765 + 65536 - 65534) % 65536 ≤ 32767 ∧
      ¬ ((32766 + 65536 - 65534) % 65536 ≤ 32767) :=
  ⟨rfl, rfl, rfl, by decide, ⟨_, rfl, rfl⟩, ⟨_, rfl, rfl, rfl⟩, by decide, by decide, by decide, by decide, by decide, by decide⟩

theorem test_witness_ReferencesHaltsAndResumesAreOffered :
    (∀ k b s, (asked k b s).holds k 7 b) ∧ tableRising shop.symbols = true ∧
      findCode shop.symbols (fieldBytes (priceBody.take 8 ++ be 4 999999999) 0 8) ≠ none ∧
      findCode State.reset.symbols (priceBody.take 8) = none ∧
      (999999999 < field (priceBody.take 8 ++ be 4 1000000000) 8 4 ∧ field (priceBody.take 8 ++ be 4 1000000000) 8 4 ≠ 0xFFFFFFFF) ∧
      field (priceBody.take 8 ++ be 4 0xFFFFFFFF) 8 4 = 0xFFFFFFFF ∧
      (∃ r, findCode (session true).symbols (fieldBytes (priceBody.take 8) 0 8) = some (3, r) ∧ r.halted = true) ∧
      (∃ r, findCode (session false).symbols (fieldBytes (priceBody.take 8) 0 8) = some (3, r) ∧ r.halted = false) :=
  ⟨fun _ _ _ => rfl, by decide, by decide, by decide, by decide, by decide, ⟨_, rfl, rfl⟩, ⟨_, rfl, rfl⟩⟩

/-- The session with a timeout of 600 frames in class 2, at a frame counter (steps 6 and 7 of 4.10, a record last updated at
10,030). -/
def ageing (counter : BitVec 32) : State :=
  { session false with
    classes := State.reset.classes.set 2 { staleTimeout := 600, flashLength := 12 }
    clock := { State.reset.clock with counter := counter } }

theorem test_witness_ClassesMakeSymbolsStale :
    (asked 0x48 [7, 0xFF, 0xFF, 255] State.reset).holds 0x48 7 [7, 0xFF, 0xFF, 255] ∧
      field [7, 0xFF, 0xFF, 255] 0 1 = (7 : Fin 8).val ∧ 7 < field [8, 0, 0, 0] 0 1 ∧
      tableRising (ageing 10630).symbols = true ∧ (ageing 10630).symbol? 4 = none ∧
      (∃ r, (ageing 10630).symbol? 3 = some r ∧ 0 < (ageing 10630).classes[r.cls].staleTimeout ∧ r.stale = false ∧
        (ageing 10630).classes[r.cls].staleTimeout ≤ ((ageing 10630).clock.counter - r.lastUpdate).toNat) ∧
      (∃ r, (ageing 10629).symbol? 3 = some r ∧
        ¬ ((ageing 10629).classes[r.cls].staleTimeout ≤ ((ageing 10629).clock.counter - r.lastUpdate).toNat)) :=
  ⟨rfl, by decide, by decide, by decide, by decide, ⟨_, rfl, by decide, rfl, by decide⟩, ⟨_, rfl, by decide⟩⟩

theorem test_witness_IdentAndSymbolQueriesReport :
    (asked 0x01 [] shop).holds 0x01 7 [] ∧ (asked 0x46 (priceBody.take 8) shop).holds 0x46 7 (priceBody.take 8) ∧
      findCode State.reset.symbols (fieldBytes (priceBody.take 8) 0 8) = none ∧
      (∃ r, findCode shop.symbols (fieldBytes (priceBody.take 8) 0 8) = some (3, r)) ∧
      (asked 0x47 [0, 0, 2] shop).holds 0x47 7 [0, 0, 2] ∧ field [0, 0, 2] 2 1 ≤ 2 ∧ 2 < field [0, 0, 3] 2 1 ∧
      tableRising shop.symbols = true ∧ (∀ k r, shop.symbol? k = some r → k < 1024) :=
  ⟨rfl, rfl, by decide, ⟨_, rfl⟩, rfl, by decide, by decide, by decide, fun k r h => by
    simp only [shop, State.symbol?, tableFind] at h
    split at h
    · omega
    · cases h⟩


/-! ### Witnesses: templates, renderings, refreshes -/

/-- A TEMPLATE_SET body: number, grouping, digit-0 code, one colour index, halt length, field count, and the first field's
kind and parameter; every other field a SYMBOL. -/
def templateBody (n grouping digit0 colour halt count kind p : Byte) : List Byte :=
  [n, grouping, digit0] ++ List.replicate 9 0x2A ++ [colour, 0, 0, 0, 0, 0, 0, 15] ++ [halt] ++ List.replicate 8 0x48 ++
    [count, kind, p] ++ List.replicate 8 0x4C ++ zeros 70

/-- Check 1 of R94. -/
abbrev templateBad (b : List Byte) : Prop :=
  7 < field b 0 1 ∨ 1 < field b 1 1 ∨ 246 < field b 2 1 ∨ (∃ k, k < 8 ∧ 15 < field b (12 + k) 1) ∨
    field b 20 1 = 0 ∨ 8 < field b 20 1 ∨ field b 29 1 = 0 ∨ 8 < field b 29 1 ∨
    ∃ k, k < field b 29 1 ∧ (6 < field b (30 + 10 * k) 1 ∨
      field b (30 + 10 * k) 1 = 6 ∧ (field b (31 + 10 * k) 1 = 0 ∨ 8 < field b (31 + 10 * k) 1))

theorem test_witness_TemplatesAreStoredAndReturned :
    let b := templateBody 7 1 246 15 8 8 6 8
    (∀ b s, (asked 0x50 b s).holds 0x50 7 b ∧ (asked 0x51 b s).holds 0x51 7 b) ∧ b.length = 110 ∧ ¬ templateBad b ∧
      field b 0 1 = (7 : Fin 8).val ∧ ((templateOf b).map worstCount).any (fun n => decide (48 < n)) = true ∧
      ((templateOf (templateBody 7 1 246 15 8 6 6 8)).map worstCount).any (fun n => decide (n ≤ 48)) = true ∧
      ((lane0 { Lane.powerOn with state := .run }).lane 0).setup.template = 0 ∧
      (∀ i, (State.reset.lane i).state = .off) ∧ 7 < field [8] 0 1 ∧ field [7] 0 1 = (7 : Fin 8).val := by
  refine ⟨fun _ _ => ⟨rfl, rfl⟩, by decide +kernel, ?_, by decide +kernel, by decide +kernel, by decide +kernel, rfl,
    by decide, by decide, by decide⟩
  rintro (h | h | h | ⟨k, hk, h⟩ | h | h | h | h | ⟨k, hk, h⟩)
  case inr.inr.inr.inl => interval_cases k <;> exact absurd h (by decide +kernel)
  case inr.inr.inr.inr.inr.inr.inr.inr =>
    have : field (templateBody 7 1 246 15 8 8 6 8) 29 1 = 8 := by decide +kernel
    rw [this] at hk
    interval_cases k <;> exact absurd h (by decide +kernel)
  all_goals exact absurd h (by decide +kernel)

theorem test_witness_template_checks :
    7 < field (templateBody 8 0 0 0 1 1 0 0) 0 1 ∧ 1 < field (templateBody 0 2 0 0 1 1 0 0) 1 1 ∧
      246 < field (templateBody 0 0 247 0 1 1 0 0) 2 1 ∧ 15 < field (templateBody 0 0 0 16 1 1 0 0) (12 + 0) 1 ∧
      field (templateBody 0 0 0 0 0 1 0 0) 20 1 = 0 ∧ 8 < field (templateBody 0 0 0 0 9 1 0 0) 20 1 ∧
      field (templateBody 0 0 0 0 1 0 0 0) 29 1 = 0 ∧ 8 < field (templateBody 0 0 0 0 1 9 0 0) 29 1 ∧
      6 < field (templateBody 0 0 0 0 1 1 7 0) (30 + 10 * 0) 1 ∧ 8 < field (templateBody 0 0 0 0 1 1 6 9) (31 + 10 * 0) 1 := by
  decide +kernel

/-- Templates whose bytes TEMPLATE_QUERY lays out, and R94's bytes that are not examined stored as 0. -/
theorem test_witness_template_bytes :
    (∀ t ∈ [ticker, Template.powerOn], t.halt.length ≤ 8 ∧ t.fields.length ≤ 8) ∧
      (∀ codes, .literal codes ∈ ticker.fields → codes.length ≤ 8) ∧
      (let b := templateBody 7 1 246 15 3 1 6 2
       (templateOf b).map templateBytes = some (((b.drop 1).take 23) ++ zeros 5 ++ [1, 6, 2, 0x4C, 0x4C] ++ zeros 76)) := by
  refine ⟨by decide, ?_, by decide +kernel⟩
  simp [ticker]

theorem test_witness_QuotesPrintAsStated :
    let q := fun reference halted => ({ code := priceBody.take 8, price := some 999999999, reference := reference
                                        decimals := 6, halted := halted } : QuoteView)
    999999999 ≤ 999999999 ∧ 6 ≤ 6 ∧ (q none false).price = some 999999999 ∧ (q none false).halted = false ∧
      (q none false).reference = none ∧ (q (some 0) false).reference = some 0 ∧ (q (some 1) false).reference = some 1 ∧
      0 < 1 ∧ (q none false).code = [0x5A, 0x51, 0x57] ++ List.replicate 5 0x20 ∧
      (0x20 : Byte) ∉ ([0x5A, 0x51, 0x57] : List Byte) ∧ ticker.fields[0]? = some .symbol := by decide

theorem test_witness_RenderingsStayWithinTheWorstCount :
    let q : QuoteView := { code := priceBody.take 8, price := some 999999999, reference := some 999999999, decimals := 6
                           halted := false }
    ticker.halt.length ≤ 8 ∧ q.code.length ≤ 8 ∧ q.decimals ≤ 6 ∧ (∀ p, q.price = some p → p ≤ 999999999) ∧
      (∀ r, q.reference = some r → r ≤ 999999999) :=
  ⟨by decide, by decide, by decide, fun p h => by cases h; decide, fun r h => by cases h; decide⟩

/-- A refresh formatting of item 0 of the shop. -/
def formatting (width : Nat) (discarded : Bool) : Formatting :=
  { item := 0, price := some 12345, previous := some 12300, reference := none, decimals := 2, halted := false
    fields := [{ kind := .price, entries := [.glyph 0x31] }], style := .flat, width := width, overtaken := false
    discarded := discarded }

/-- The shop with a refresh queue and a formatting in flight. -/
def refreshing (queue : List Nat) (f : Option Formatting) : State :=
  { shop with formatter := { shop.formatter with queue := queue, inFlight := f } }

theorem test_witness_RefreshesAreQueuedAndConcluded :
    let full := (List.range 64).map (· + 100)
    0 ∈ (refreshing [0] none).formatter.queue ∧ 0 ∉ full ∧ 64 ≤ full.length ∧
      (∃ it, (refreshing full none).item? 0 = some it) ∧ 0 ∉ full.take 63 ∧ (full.take 63).length < 64 ∧
      (refreshing full (some (formatting 10 false))).formatter.inFlight ≠ none ∧
      (refreshing [] none).formatter.inFlight = none ∧ (refreshing [0] none).formatter.queue = 0 :: [] ∧
      (∃ it code link r, (refreshing [0] none).item? 0 = some it ∧ it.content = .quote code link ∧
        (refreshing [0] none).symbol? link = some r) ∧
      (refreshing [] (some (formatting 10 true))).formatter.inFlight = some (formatting 10 true) ∧
      (∃ it c code link r fields, (refreshing [] (some (formatting 10 false))).item? (formatting 10 false).item = some it ∧
        it.cell = some c ∧ c.width < (formatting 11 false).width ∧ (formatting 10 false).width ≤ c.width ∧
        it.content = .quote code link ∧ shop.symbol? link = some r ∧ c.rendering = .quote fields ∧
        ((∃ x ∈ (formatting 10 false).fields, x.kind = .price) ∧
          priceEntries (formatting 10 false).fields ≠ priceEntries fields ∧ (formatting 10 false).halted = false ∧
          c.style ≠ .halted ∧ c.style ≠ .noPrice ∧ (formatting 10 false).price ≠ (formatting 10 false).previous)) :=
  ⟨by decide, by decide, by decide, ⟨_, rfl⟩, by decide, by decide, by decide, rfl, rfl, ⟨_, _, _, _, rfl, rfl, rfl⟩, rfl,
    ⟨_, _, _, _, _, _, rfl, rfl, by decide, by decide, rfl, rfl, rfl, ⟨_, List.mem_singleton_self _, rfl⟩, by decide, rfl, by decide, by decide,
      by decide⟩⟩

/-! ### Witnesses: stores -/

theorem test_shop_texts_are_sound : TextsSound shop.texts := by
  refine ⟨by decide, fun id r h => ?_, by decide, by decide⟩
  simp only [shop, tableFind] at h
  split at h
  · cases h; decide
  · cases h

/-- Eight texts that hold all 256 blocks. -/
def fullTexts : Table TextRec :=
  (List.range 8).map fun k => (k, { blocks := List.range' (32 * k) 32, codes := List.replicate 1024 0x20, refCount := 0
                                    viewCount := 0 })

theorem test_full_texts_are_sound : TextsSound fullTexts := by
  refine ⟨by decide, fun id r h => ?_, by decide +kernel, by decide +kernel⟩
  have hall : ∀ x ∈ fullTexts, 1 ≤ x.2.codes.length ∧ x.2.codes.length ≤ 1024 ∧
      x.2.blocks.length = ceilDiv x.2.codes.length 32 := by
    intro x hx
    obtain ⟨k, -, rfl⟩ := List.mem_map.1 hx
    rw [List.length_replicate, List.length_range']
    decide
  rw [fullTexts, test_find_in_a_row] at h
  split at h
  · rename_i hm
    cases h
    exact hall _ (List.mem_map.2 ⟨id, hm, rfl⟩)
  · cases h

theorem test_witness_TextsAreCreatedWrittenAndFreed :
    (∀ k b s, (asked k b s).holds k 7 b) ∧ TextsSound shop.texts ∧ TextsSound fullTexts ∧
      field [8, 0, 0] 1 2 = 0 ∧ 1024 < field [8, 4, 1] 1 2 ∧ field [8, 4, 0] 1 2 = 1024 ∧
      shop.text? (field [7, 0, 1] 0 1) ≠ none ∧ shop.text? (field [8, 0, 1] 0 1) = none ∧
      256 < (usedBlocks fullTexts).length + (field [8, 0, 1] 1 2 + 31) / 32 ∧
      (usedBlocks shop.texts).length + (field [8, 4, 0] 1 2 + 31) / 32 ≤ 256 ∧
      (zeros 4).length = 4 ∧ (zeros 243).length = 243 ∧
      (∃ r, shop.text? 7 = some r ∧ r.codes.length < 0 + 2 ∧ 0 + 1 ≤ r.codes.length ∧ 0 < r.refCount ∧ ¬ 0 < r.viewCount) ∧
      shop.compositor.inFlight = none ∧ (∃ r, tableFind fullTexts 7 = some r ∧ r.refCount = 0 ∧ r.viewCount = 0) :=
  ⟨fun _ _ _ => rfl, test_shop_texts_are_sound, test_full_texts_are_sound, by decide, by decide, by decide, by decide,
    by decide, by decide +kernel, by decide, rfl, by decide +kernel, ⟨_, rfl, by decide, by decide, by decide, by decide⟩, rfl,
    ⟨_, rfl, rfl, rfl⟩⟩

/-- Face 1 of height 40 with the glyph 41h of 6.7 half loaded. -/
def halfLoaded : State :=
  { State.reset with
    faces := State.reset.faces.set 1 { height := 40, defaultAdvance := 10, glyphs := [(0x41, {
      advance := 24, expected := 480, granules := List.range 8, image := zeros 240 })] } }

theorem test_half_loaded_faces_are_sound : FacesSound halfLoaded.faces := by
  refine ⟨by decide, by decide, by decide, fun k code g h => ?_, by decide, by decide⟩
  by_cases hk : k = 1
  · subst hk
    change tableFind [(0x41, _)] code = some g at h
    simp only [tableFind] at h
    split at h
    · cases h; decide +kernel
    · cases h
  · have : halfLoaded.faces[k].glyphs = [] := by clear h; revert k; decide
    rw [this] at h; cases h


/-- Face 0 of height 128 with 130 glyphs of 63 granules each: 8,190 granules held. -/
def crowdedGlyph (k : Nat) : Glyph :=
  { advance := 63, expected := 4032, granules := List.range' (63 * k) 63, image := [] }
def crowded : Vector Face 4 :=
  State.reset.faces.set 0 { height := 128, defaultAdvance := 8, glyphs := (List.range 130).map fun k => (k, crowdedGlyph k) }

theorem test_find_in_crowded_faces (k : Fin 4) (code : Nat) :
    tableFind crowded[k].glyphs code = if k = 0 ∧ code < 130 then some (crowdedGlyph code) else none := by
  by_cases hk : k = 0
  · subst hk
    exact (test_find_in_a_row (List.range 130) crowdedGlyph code).trans (by simp)
  · have : crowded[k].glyphs = [] := by revert k; decide
    rw [this, if_neg fun h => hk h.1]
    rfl

theorem test_crowded_faces_are_sound : FacesSound crowded := by
  have rows : ∀ n, (List.range n).flatMap (fun k => List.range' (63 * k) 63) = List.range (63 * n) := by
    intro n
    induction n with
    | zero => rfl
    | succ n ih =>
      rw [List.range_succ, List.flatMap_append, ih, List.flatMap_singleton, List.range_eq_range', List.range_eq_range',
        Nat.mul_succ, ← List.range'_append_1, Nat.zero_add]
  have held : heldGranules crowded = List.range 8190 :=
    calc heldGranules crowded = ((List.range 130).map fun k => (k, crowdedGlyph k)).flatMap (fun p => p.2.granules) ++ [] := rfl
      _ = List.range (63 * 130) := by rw [List.append_nil, List.flatMap_map]; exact rows 130
      _ = List.range 8190 := by rw [show 63 * 130 = 8190 from rfl]
  refine ⟨by decide +kernel, by decide, by decide, fun k code g h => ?_, ?_, ?_⟩
  · rw [test_find_in_crowded_faces] at h
    split at h
    · rename_i hk
      cases h
      rw [hk.1]
      refine ⟨?_, Nat.le_refl 63, ?_, Nat.zero_le _, ?_⟩
      · show 1 ≤ 63
        decide
      · show 4032 = ceilDiv (128 * 63) 2
        decide
      · show (List.range' (63 * code) 63).length = ceilDiv 4032 64
        rw [List.length_range']
        decide
    · cases h
  · intro b hb
    rw [held] at hb
    exact Nat.lt_trans (List.mem_range.1 hb) (by decide)
  · rw [held]
    exact List.nodup_range

/-- The granules free for code 200 of face 0: two, of the 63 that a glyph of advance 63 needs. -/
theorem test_witness_no_space_for_a_glyph (g : Nat) :
    g ∈ [8190, 8191] ↔ g < 8192 ∧ ∀ (j : Fin 4) c r, tableFind crowded[j].glyphs c = some r → (j ≠ 0 ∨ c ≠ 200) →
      g ∉ r.granules := by
  constructor
  · intro hg
    have hg : g = 8190 ∨ g = 8191 := by simpa using hg
    refine ⟨by omega, fun j c r h _ hm => ?_⟩
    rw [test_find_in_crowded_faces] at h
    split at h
    · cases h
      have := List.mem_range'_1.1 hm
      omega
    · cases h
  · rintro ⟨hg, hf⟩
    by_contra hn
    have hn : g < 8190 := by
      have : ¬ (g = 8190 ∨ g = 8191) := by simpa using hn
      omega
    refine hf 0 (g / 63) (crowdedGlyph (g / 63)) ?_ (.inr (by omega)) (List.mem_range'_1.2 (by omega))
    rw [test_find_in_crowded_faces, if_pos ⟨rfl, by omega⟩]

/-- A GLYPH_LOAD body. -/
def loadBody (face code advance : Byte) (offset n : Nat) : List Byte := [face, code, advance] ++ be 2 offset ++ zeros n

theorem test_witness_FacesAndGlyphsAreLoaded :
    let busy := fun (s : State) (k : Fin 4) =>
      (∃ i, (s.lane i).state ≠ .off ∧ (s.lane i).state ≠ .idle ∧ (s.lane i).setup.face = k) ∨
        ∃ sn, s.compositor.inFlight = some sn ∧ ∃ l ∈ sn.lanes, l.face = k ∧ l.cells ≠ []
    (∀ k b s, (asked k b s).holds k 7 b) ∧ 3 < field [4, 16, 1] 0 1 ∧ field [3, 16, 1] 0 1 = (3 : Fin 4).val ∧
      field [0, 15, 1] 1 1 < 16 ∧ 128 < field [0, 129, 1] 1 1 ∧ field [0, 128, 0] 2 1 = 0 ∧ 63 < field [0, 128, 64] 2 1 ∧
      busy shop 0 ∧ ¬ busy State.reset 0 ∧
      (∃ i, ((lane0 { Lane.powerOn with state := .idle }).lane i).state ≠ .off ∧
        ((lane0 { Lane.powerOn with state := .idle }).lane i).setup.face = 0 ∧
        ((lane0 { Lane.powerOn with state := .idle }).lane i).setup.bandHeight < 17) :=
  ⟨fun _ _ _ => rfl, by decide, by decide, by decide, by decide, by decide, by decide, .inl ⟨0, by decide, by decide, rfl⟩,
    fun h => h.elim (fun ⟨i, h, _⟩ => h (by revert i; decide)) (fun ⟨_, h, _⟩ => by cases h),
    0, by decide, rfl, by decide⟩

theorem test_witness_glyph_loads :
    (loadBody 1 0x41 24 240 1).length = 6 ∧ (loadBody 1 0x41 24 0 240).length = 245 ∧
      tableRising halfLoaded.faces[(1 : Fin 4)].glyphs = true ∧ field (loadBody 1 0x41 24 0 1) 3 2 = 0 ∧
      field (loadBody 1 0x41 0 0 1) 2 1 = 0 ∧ 63 < field (loadBody 1 0x41 64 0 1) 2 1 ∧
      ((loadBody 1 0x41 1 0 21).drop 5).length = (40 * 1 + 1) / 2 + 1 ∧ FacesSound halfLoaded.faces ∧
      [8190, 8191].length < (4032 + 63) / 64 ∧ FacesSound crowded ∧
      tableFind halfLoaded.faces[(1 : Fin 4)].glyphs 0x42 = none ∧
      (∃ g, tableFind halfLoaded.faces[(1 : Fin 4)].glyphs 0x41 = some g ∧ 240 = g.image.length ∧ 241 ≠ g.image.length ∧
        240 + 240 ≤ g.expected ∧ g.expected < 240 + 241) :=
  ⟨by decide, by decide +kernel, by decide, by decide, by decide, by decide, by decide, test_half_loaded_faces_are_sound, by decide,
    test_crowded_faces_are_sound, by decide, ⟨_, rfl, by decide +kernel⟩⟩

theorem test_witness_StoresQueueAndClockStaySound :
    let s := { State.reset with
      texts := shop.texts, symbols := shop.symbols, pool := shop.pool, faces := halfLoaded.faces, formatter := { shop.formatter with queue := [0] }
      compositor := { State.reset.compositor with state := .composing, inFlight := some State.reset.snapshot }
      pending := [.compositionComplete] }
    (∃ t, step s = .next t) ∧ TextsSound s.texts ∧ FacesSound s.faces ∧ tableRising s.symbols = true ∧
      GenerationsSound s.pool.generations ∧ s.formatter.Sound ∧ s.clock.Sound ∧ s.compositor.Sound ∧ inReset.HeldInReset ∧ inReset.pending = [.receiveByte 1 0xC3] :=
  ⟨⟨_, rfl⟩, test_shop_texts_are_sound, test_half_loaded_faces_are_sound, by decide,
    ⟨by decide, by decide⟩, ⟨by decide, by decide⟩,
    ⟨by decide, by decide, by decide, by decide, by decide, by decide, fun p h => by cases h⟩, ⟨by decide, by decide⟩,
    test_in_reset_is_held, rfl⟩

/-! ### Witnesses: clock, inputs, frame starts -/

/-- A TIMING_SETUP body. -/
def timingBody (source : Byte) (period : Nat) (relock : Byte) : List Byte := [source] ++ be 4 period ++ [relock]

theorem test_witness_TimingAndInputsAreProgrammed :
    let bad := fun b : List Byte => 1 < field b 0 1 ∨ field b 1 4 < 270000 ∨ 2700000 < field b 1 4 ∨ field b 5 1 = 0
    (∀ k b s, (asked k b s).holds k 7 b) ∧ (timingBody 1 270000 1).length = 6 ∧ bad (timingBody 2 270000 1) ∧
      bad (timingBody 1 269999 1) ∧ bad (timingBody 1 2700001 1) ∧ bad (timingBody 1 270000 0) ∧
      ¬ bad (timingBody 0 270000 1) ∧ ¬ bad (timingBody 1 2700000 255) ∧ field (timingBody 0 270000 1) 0 1 = 0 ∧
      field (timingBody 1 2700000 255) 0 1 = 1 ∧ State.reset.clock.lock = .free ∧ (seeking 0 500000).clock.lock ≠ .free ∧
      field (timingBody 1 450450 9) 1 4 = (seeking 0 500000).clock.period ∧ 270000 ≠ (seeking 0 270001).clock.period ∧
      (seeking 0 270001).clock.origin + 270000 < (seeking 0 270001).clock.now ∧
      (seeking 0 270000).clock.now ≤ (seeking 0 270000).clock.origin + 270000 :=
  ⟨fun _ _ _ => rfl, by decide, by decide, by decide, by decide, by decide, by decide, by decide, by decide, by decide, rfl,
    by decide, by decide, by decide, by decide, by decide⟩

theorem test_witness_inputs_are_programmed :
    3 < field [4, 0] 0 1 ∧ 3 < field [0, 4] 1 1 ∧ field [3, 3] 0 1 = (3 : GpiId).val ∧
      (match EdgeKind.both with | .none => 0 | .rise => 1 | .fall => 2 | .both => 3) = field [3, 3] 1 1 := by decide

/-- Input 0 away from its counted level since tick 0. -/
def bouncing (edge : EdgeKind) (now : Nat) : State :=
  { State.reset with
    clock := { State.reset.clock with now := now }
    gpi := State.reset.gpi.set 0 { level := true, counted := false, debounce := some 0, edge := edge }
    lanes := State.reset.lanes.set 0 (armed (.gpi 0) .idle false) }

theorem test_witness_GpiChangesAreDebounced :
    State.reset.gpi[(0 : GpiId)].debounce = none ∧
      State.reset.gpi[(0 : GpiId)].level = State.reset.gpi[(0 : GpiId)].counted ∧
      (bouncing .rise 0).gpi[(0 : GpiId)].debounce = some 0 ∧
      (bouncing .rise 0).gpi[(0 : GpiId)].level ≠ (bouncing .rise 0).gpi[(0 : GpiId)].counted ∧
      (bouncing .rise 0).inReset = false ∧ (bouncing .rise 0).clock.now + 26999 < 0 + 27000 ∧
      0 + 27000 ≤ (bouncing .rise 0).clock.now + 27000 ∧ (1 : LaneSet).getLsbD (0 : LaneId).val = true ∧
      (0 : LaneSet).getLsbD (0 : LaneId).val = false ∧ ((bouncing .rise 0).lane 0).visible = [] ∧
      ((bouncing .rise 0).lane 0).queued = [] ∧ (stopping ((bouncing .rise 0).lane 0)).setup.onEmpty = .stop ∧ 
      (bouncing .rise 26999).clock.now < 0 + 27000 ∧ ¬ (bouncing .rise 27001).clock.now < 0 + 27000 ∧
      (bouncing .rise 0).gpi[(0 : GpiId)].edge = .rise ∧ (bouncing .rise 0).gpi[(0 : GpiId)].level = true ∧
      (bouncing .fall 0).gpi[(0 : GpiId)].edge ≠ .both ∧ (bouncing .fall 0).gpi[(0 : GpiId)].edge ≠ .rise ∧
      ((bouncing .rise 0).lane 0).state = .armed ∧
      ((bouncing .rise 0).lane 0).arm = some { condition := .gpi 0, returns := .idle, met := false } ∧
      ((bouncing .rise 0).lane 0).setup.onEmpty ≠ .stop ∧ ((bouncing .rise 0).lane 1).state ≠ .armed := by decide +kernel

/-- The reset state with a Compositor. -/
def composing (state : CompositionState) (policy : OverrunPolicy) : State :=
  { State.reset with
    compositor := { State.reset.compositor with
      state := state, policy := policy, inFlight := if state = .composing then some State.reset.snapshot else none } }

theorem test_witness_FrameStartsReachEveryBlock :
    (composing .idle .freeze).compositor.state = .idle ∧ (composing .composing .repeatFrame).compositor.state = .composing ∧
      (composing .composing .repeatFrame).compositor.policy = .repeatFrame ∧
      (composing .composing .freeze).compositor.policy = .freeze ∧ (composing .halted .freeze).compositor.state = .halted :=
  ⟨rfl, rfl, rfl, rfl, rfl⟩

/-- A frame start of the shop latches lane 0 with the cell of its visible QUOTE. -/
theorem test_witness_snapshot :
    let t := shop.frameStart [] 900900
    shop.compositor.state = .idle ∧ (t.snapshot.lanes.map LaneShot.lane) = [0] ∧ (t.lane 0).visible = [0] ∧
      (t.lane 0).visible[0]? = some 0 ∧
      ((t.item? 0).bind Item.cell).map Cell.style = some .flat ∧
      (t.item? 0).map Item.content = some (.quote (priceBody.take 8) 3) ∧
      (t.symbol? 3).map SymbolRec.stale = some false := by decide +kernel

/-- A state whose Compositor is COMPOSING under FREEZE. -/
def overrunning (s : State) : State :=
  { s with compositor := { s.compositor with state := .composing, policy := .freeze, inFlight := some s.snapshot } }

theorem test_overrunning_lists_agree {s : State} (h : s.ListsAgree) : (overrunning s).ListsAgree :=
  ⟨h.rising, h.slots, h.once, h.visible, h.queued, h.listed, h.bare, h.off⟩

/-- R86: at the frame start that is timeout frames after its last update the shop's symbol becomes stale. -/
theorem test_a_symbol_is_due_at_a_frame_start :
    let s := { shop with classes := shop.classes.set 2 { staleTimeout := 1, flashLength := 0 } }
    (s.clock.counter + 1).toNat = 1 ∧ ((s.frameStart [] 900900).symbol? 3).map SymbolRec.stale = some true ∧
      ((shop.frameStart [] 900900).symbol? 3).map SymbolRec.stale = some false := by
  decide +kernel

/-- A LOCKED clock of period 450,450 (h = 2,252) with its origin at 0. -/
def lockedAt (now : Nat) : State :=
  { seeking 0 now with clock := { (seeking 0 now).clock with lock := .locked, previousPulse := some 0 } }

/-- A clock in SEEK whose previous pulse came at 100,000, with a relock count. -/
def counting (relock origin now : Nat) : State :=
  { seeking 0 now with
    clock := { (seeking 0 now).clock with relock := relock, consistent := 1, previousPulse := some 100000, origin := origin } }

theorem test_witness_TimersAndPulsesDriveTheClock :
    inReset.inReset = true ∧ State.reset.inReset = false ∧ State.reset.clock.lock = .free ∧ State.reset.clock.lock ≠ .locked ∧ (lockedAt 0).clock.lock = .locked ∧
      (let c := (counting 3 0 548198).clock
       c.lock = .seek ∧ c.previousPulse = some 100000 ∧ 100000 + c.period ≤ c.now + c.period / 200 ∧
        c.now ≤ 100000 + c.period + c.period / 200 ∧ c.consistent + 1 < c.relock) ∧
      (let c := (counting 2 0 552702).clock
       100000 + c.period ≤ c.now + c.period / 200 ∧ c.now ≤ 100000 + c.period + c.period / 200 ∧
        c.relock ≤ c.consistent + 1 ∧ c.period ≤ 2 * (c.now - c.origin)) ∧
      (let c := (counting 2 450450 552702).clock
       c.relock ≤ c.consistent + 1 ∧ 2 * (c.now - c.origin) < c.period) ∧
      (let c := (counting 2 0 552703).clock
       100000 + c.period + c.period / 200 < c.now ∧ 1 < c.relock) ∧
      ((lockedAt 448197).clock.now + 2252 < 0 + 450450 ∧ 0 + 450450 ≤ (lockedAt 448198).clock.now + 2252 ∧
        (lockedAt 452702).clock.now ≤ 0 + 450450 + 2252 ∧ 0 + 450450 + 2252 < (lockedAt 452703).clock.now ∧
        (lockedAt 0).clock.origin = 0 ∧ (lockedAt 0).clock.period = 450450 ∧ 450450 / 200 = 2252) := by decide

/-- The shop with another lane 0, its QUOTE visible and its TEXT queued. -/
def shopLane (state : LaneState) (dwell : Nat) (arm : Option Arm) : State :=
  shop.setLane 0 { shop.lane 0 with state := state, dwell := dwell, arm := arm }

theorem test_shop_lane_agrees (state : LaneState) (dwell : Nat) (arm : Option Arm)
    (h : ∀ l : Lane, l.state = state → l.arm = arm → l.isBare = false ∧ l.state ≠ .off) :
    (shopLane state dwell arm).ListsAgree := by
  have a := test_shop_lists_agree
  have lanes : ∀ i, ((shopLane state dwell arm).lane i).visible = (shop.lane i).visible ∧
      ((shopLane state dwell arm).lane i).queued = (shop.lane i).queued := by
    intro i; unfold shopLane; rw [State.lane_setLane]; split <;> simp_all
  have other : ∀ i, i ≠ 0 → (shopLane state dwell arm).lane i = shop.lane i := by
    intro i hi; unfold shopLane; rw [State.lane_setLane, if_neg (Ne.symm hi)]
  have here : ((shopLane state dwell arm).lane 0).state = state ∧ ((shopLane state dwell arm).lane 0).arm = arm := by
    unfold shopLane; rw [State.lane_setLane]; exact ⟨rfl, rfl⟩
  refine ⟨a.rising, a.slots, fun i => ?_, fun i => ?_, fun i => ?_, fun slot it hi => ?_, fun i hb => ?_, fun i ho => ?_⟩
  · rw [(lanes i).1, (lanes i).2]; exact a.once i
  · rw [(lanes i).1]; exact a.visible i
  · rw [(lanes i).2]; exact a.queued i
  · rw [(lanes it.lane).1, (lanes it.lane).2]; exact a.listed slot it hi
  · by_cases hz : i = 0
    · subst hz; exact absurd hb (by rw [(h _ here.1 here.2).1]; decide)
    · rw [other i hz] at hb ⊢; exact a.bare i hb
  · by_cases hz : i = 0
    · subst hz; exact absurd ho (h _ here.1 here.2).2
    · rw [other i hz] at ho ⊢; exact a.off i ho

theorem test_witness_LanesAnswerFrameStarts :
    let s := lane0 { Lane.powerOn with state := .run }
    let returning := fun met => some { condition := .sync, returns := .stopped, met := met }
    (s.lane 0).state = .run ∧ (s.lane 0).clearing = false ∧ (s.lane 0).visible = [] ∧ (s.lane 0).queued = [] ∧
      (s.lane 0).targets = [] ∧ (s.lane 0).setup.onEmpty = .runBlank ∧ (∀ k : CueId, (s.lane 0).cues[k].armed = false) ∧
      (s.compositor.state = .composing → s.compositor.policy = .repeatFrame) ∧
      (∀ d, (shopLane .held d none).ListsAgree) ∧ ((shopLane .held 2 none).lane 0).state = .held ∧
      ((shopLane .held 1 none).lane 0).dwell ≤ 1 ∧ 1 < ((shopLane .held 2 none).lane 0).dwell ∧
      0 ∈ ((shopLane .held 2 none).lane 0).visible ∧
      (∃ it c, (shopLane .held 2 none).item? 0 = some it ∧ it.cell = some c) ∧
      (shopLane .stopped 0 none).ListsAgree ∧ (shopLane .frozen 0 none).ListsAgree ∧ (shopLane .run 0 none).ListsAgree ∧
      (∀ met, (shopLane .armed 0 (returning met)).ListsAgree) ∧ (State.reset.lane 0).state = .off :=
  ⟨rfl, rfl, rfl, rfl, rfl, rfl, by decide, by decide,
    fun d => test_shop_lane_agrees .held d none fun l h _ => by simp [Lane.isBare, h], rfl, by decide, by decide, by decide,
    ⟨_, _, rfl, rfl⟩, test_shop_lane_agrees .stopped 0 none fun l h _ => by simp [Lane.isBare, h],
    test_shop_lane_agrees .frozen 0 none fun l h _ => by simp [Lane.isBare, h],
    test_shop_lane_agrees .run 0 none fun l h _ => by simp [Lane.isBare, h],
    fun met => test_shop_lane_agrees .armed 0 _ fun l h ha => by simp [Lane.isBare, h, ha], rfl⟩

/-- R23 and R42: an empty lane that clears, or that drains, in agreement with a pool that lists nothing. -/
theorem test_witness_empty_lanes_stop :
    let s := fun clearing onEmpty => lane0 { Lane.powerOn with
      state := .run, clearing := clearing, setup := { LaneSetup.powerOn with onEmpty := onEmpty } }
    (∀ c e, (s c e).ListsAgree) ∧ ((s true .runBlank).lane 0).clearing = true ∧
      ((s false .stop).lane 0).setup.onEmpty = .stop := by
  refine ⟨fun c e => ⟨rfl, fun _ _ h => (by cases h), fun i => ?_, fun i k h => ?_, fun i k h => ?_,
    fun _ _ h => (by cases h), fun i _ => ?_, fun i _ => ?_⟩, rfl, rfl⟩
  all_goals fin_cases i <;> first | rfl | cases h | exact List.nodup_nil

theorem test_witness_freezes :
    (∀ st ∈ [LaneState.run, .held, .stopped, .frozen], (overrunning (shopLane st 0 none)).ListsAgree ∧
      ((overrunning (shopLane st 0 none)).lane 0).state = st) ∧
      (∀ arm, arm = some { condition := .sync, returns := .stopped, met := true } →
        (overrunning (shopLane .armed 0 arm)).ListsAgree) := by
  refine ⟨fun st h => ⟨test_overrunning_lists_agree (test_shop_lane_agrees st 0 none fun l hl _ => ?_), rfl⟩,
    fun arm ha => test_overrunning_lists_agree (test_shop_lane_agrees .armed 0 arm fun l hl h => ?_)⟩
  · simp only [List.mem_cons, List.not_mem_nil, or_false] at h
    rcases h with rfl | rfl | rfl | rfl <;> simp [Lane.isBare, hl]
  · simp [Lane.isBare, hl, h, ha]

/-- R147: an empty lane ARMED from IDLE that a pulse of lane 0's landing reaches before the freeze drains to IDLE. -/
theorem test_a_drained_start_before_a_freeze :
    let s := overrunning (landing.setLane 1 (stopping (armed .sync .idle false)))
    let t := s.frameStart [.lane 0] 900900
    (t.lane 0).state = .frozen ∧ (t.lane 1).state = .idle ∧ (t.lane 2).state = .frozen ∧
      ((s.frameStart [.freeze 1] 900900).lane 1).state = .frozen := by decide +kernel

theorem test_witness_FrameStartsKeepTheirDistance :
    State.reset.clock.Sound ∧ (∀ e tag b, Instr.framePeriodExpiry [] ≠ .deviceReset e tag b) ∧
      (∀ edge, Instr.framePeriodExpiry [] ≠ .powerOnReset edge) ∧
      ∃ t, exec (.framePeriodExpiry []) State.reset = .next t ∧ t.clock.counter ≠ State.reset.clock.counter :=
  ⟨⟨by decide, by decide, by decide, by decide, by decide, by decide, fun p h => by cases h⟩, by simp, by simp, _, rfl,
    by decide +kernel⟩

/-! ### Witnesses: output -/

/-- A PALETTE_SET body. -/
def paletteBody (entry : Byte) (y cb cr gain : Nat) : List Byte := [entry] ++ be 2 y ++ be 2 cb ++ be 2 cr ++ be 2 gain

theorem test_witness_OutputIsProgrammedAndResumed :
    let bad := fun b : List Byte =>
      15 < field b 0 1 ∨ 1023 < field b 1 2 ∨ 1023 < field b 3 2 ∨ 1023 < field b 5 2 ∨ 1023 < field b 7 2
    (∀ k b s, (asked k b s).holds k 7 b) ∧ (paletteBody 15 1023 1023 1023 1023).length = 9 ∧
      ¬ bad (paletteBody 15 1023 1023 1023 1023) ∧ bad (paletteBody 16 0 0 0 0) ∧ bad (paletteBody 0 1024 0 0 0) ∧
      bad (paletteBody 0 0 0 0 1024) ∧ field (paletteBody 15 1023 1023 1023 1023) 0 1 = (15 : Fin 16).val ∧
      1 < field [2] 0 1 ∧ field [1] 0 1 ≤ 1 ∧ (composing .halted .freeze).compositor.state = .halted ∧
      (composing .idle .freeze).compositor.state ≠ .halted ∧
      (∃ sn, (composing .composing .freeze).compositor.inFlight = some sn) ∧
      (composing .idle .freeze).compositor.state ≠ .composing :=
  ⟨fun _ _ _ => rfl, by decide, by decide, by decide, by decide, by decide, by decide, by decide, by decide, rfl, by decide,
    ⟨_, rfl⟩, by decide⟩

/-- Lanes 1 and 3 latched, lane 3's band within lane 1's. -/
def twoBands : Snapshot :=
  { palette := Vector.replicate 16 { y := 1023, cb := 1023, cr := 1023, gain := 1023 }
    lanes := [
      { lane := 1, bandTop := 980, bandHeight := 64, x0 := 10, width := 1900, face := 0, background := 1, smoothing := true
        travel := 0, cells := [] },
      { lane := 3, bandTop := 990, bandHeight := 16, x0 := 0, width := 1920, face := 0, background := 2, smoothing := true
        travel := 0, cells := [] }] }

theorem test_witness_PicturesStayInRangeAndInTheirBands :
    (∀ k : Fin 16, twoBands.palette[k].y ≤ 1023 ∧ twoBands.palette[k].cb ≤ 1023 ∧ twoBands.palette[k].cr ≤ 1023 ∧
      twoBands.palette[k].gain ≤ 1023) ∧
      (∀ l ∈ twoBands.lanes, 979 < l.bandTop ∨ l.bandTop + l.bandHeight ≤ 979) ∧
      (∃ l ∈ twoBands.lanes, l.bandTop ≤ 1043 ∧ 1043 < l.bandTop + l.bandHeight ∧
        (∀ m ∈ twoBands.lanes, m.bandTop ≤ 1043 → 1043 < m.bandTop + m.bandHeight → m = l ∨ m.lane < l.lane) ∧
        9 < l.x0) ∧
      (∃ l ∈ twoBands.lanes, l.bandTop ≤ 990 ∧ 990 < l.bandTop + l.bandHeight ∧
        (∀ m ∈ twoBands.lanes, m.bandTop ≤ 990 → 990 < m.bandTop + m.bandHeight → m = l ∨ m.lane < l.lane)) := by decide

/-- A band of one TEXT cell twice, on glyph row 0 of a 16-line face. -/
theorem test_witness_a_glyph_pixel :
    let c : CellShot := { entry := 0, width := 8, rendering := .text 7, colour := 1 }
    let l : LaneShot := { lane := 2, bandTop := 100, bandHeight := 20, x0 := 0, width := 1920, face := 0, background := 2
                          smoothing := true, travel := 640, cells := [c, c] }
    let top := l.bandTop + (l.bandHeight - State.reset.faces[l.face].height) / 2
    l.x0 ≤ 1915 ∧ 1915 < l.x0 + l.width ∧ top ≤ 102 ∧ 102 < top + State.reset.faces[l.face].height ∧
      l.cells = [] ++ c :: [c] ∧ { l with cells := [] }.cells = [] := by decide

end Sys2Proof.Tests
end

namespace Sys2Proof.Machine

/-! ### The braking distance (R7) -/

@[simp] theorem brakingDistance_zero (a : Nat) : brakingDistance 0 a = 0 := rfl

theorem brakingDistance_formula {v : Nat} (a : Nat) (hv : 1 ≤ v) :
    brakingDistance v a = (v - 1) / a * v - a * ((v - 1) / a) * ((v - 1) / a + 1) / 2 := by
  simp [brakingDistance, show v ≠ 0 by omega]

/-- From a velocity of at most A, one braking step stops the lane. -/
theorem brakingDistance_of_le {v a : Nat} (h : v ≤ a) : brakingDistance v a = 0 := by
  unfold brakingDistance
  split
  · rfl
  · simp [Nat.div_eq_of_lt (show v - 1 < a by omega)]

/-- The sum 1 + 2 + … + k, taken a times. -/
theorem scaled_triangle_succ (a k : Nat) :
    a * (k + 1) * (k + 2) / 2 = a * k * (k + 1) / 2 + a * (k + 1) := by
  have : a * (k + 1) * (k + 2) = a * k * (k + 1) + 2 * (a * (k + 1)) := by ring
  rw [this, Nat.add_mul_div_left _ _ (by omega)]

/-- Above A, the first braking step covers V − A and the rest is the braking distance of V − A. -/
theorem brakingDistance_of_gt {v a : Nat} (ha : 1 ≤ a) (h : a < v) :
    brakingDistance v a = (v - a) + brakingDistance (v - a) a := by
  obtain ⟨w, rfl⟩ : ∃ w, v = w + a + 1 := ⟨v - a - 1, by omega⟩
  have hdiv : (w + a + 1 - 1) / a = w / a + 1 := by rw [Nat.add_sub_cancel, Nat.add_div_right _ (by omega)]
  have hsub : w + a + 1 - a = w + 1 := by omega
  rw [brakingDistance_formula a (by omega), hsub, brakingDistance_formula a (by omega), hdiv, Nat.add_sub_cancel,
    scaled_triangle_succ]
  generalize hk : w / a = k
  have hka : a * k ≤ w := hk ▸ Nat.mul_div_le w a
  have hfit : a * k * (k + 1) / 2 ≤ k * (w + 1) := by
    have : a * k * (k + 1) ≤ 2 * (k * (w + 1)) := by
      rcases Nat.eq_zero_or_pos k with rfl | hpos
      · simp
      · have : a ≤ a * k := Nat.le_mul_of_pos_right a hpos
        calc a * k * (k + 1) = k * (a * k + a) := by ring
          _ ≤ k * (2 * (w + 1)) := Nat.mul_le_mul_left k (by omega)
          _ = 2 * (k * (w + 1)) := by ring
    omega
  have hprod : (k + 1) * (w + a + 1) = k * (w + 1) + a * (k + 1) + (w + 1) := by ring
  omega

/-- The braking steps V − A, V − 2A, … of n advances sum to the braking distance once n reaches V. -/
theorem sum_brakingSteps {a : Nat} (ha : 1 ≤ a) (n v : Nat) (h : v ≤ n) :
    ((List.range n).map fun k => v - (k + 1) * a).sum = brakingDistance v a := by
  induction n generalizing v with
  | zero => simp [show v = 0 by omega]
  | succ n ih =>
    have hrest : ((List.range n).map fun k => v - (k + 1 + 1) * a) = (List.range n).map fun k => v - a - (k + 1) * a :=
      List.map_congr_left fun k _ => by rw [Nat.sub_sub]; congr 1; ring
    simp only [List.range_succ_eq_map, List.map_cons, List.map_map, List.sum_cons, Function.comp_def, Nat.succ_eq_add_one,
      hrest, Nat.zero_add, Nat.one_mul]
    rw [ih (v - a) (by omega)]
    rcases Nat.lt_or_ge a v with hv | hv
    · rw [brakingDistance_of_gt ha hv]
    · rw [show v - a = 0 by omega, brakingDistance_of_le hv, brakingDistance_zero]

theorem brakingDistance_eq_zero_iff {v a : Nat} (ha : 1 ≤ a) : brakingDistance v a = 0 ↔ v ≤ a := by
  refine ⟨fun h => ?_, brakingDistance_of_le⟩
  by_contra hv
  rw [brakingDistance_of_gt ha (by omega)] at h
  omega

/-- Settles O28: the formula is the definition, the sum is `sum_brakingSteps`. -/
theorem brakingDistanceIsTheSumOfTheSteps : Obligations.BrakingDistanceIsTheSumOfTheSteps :=
  ⟨brakingDistance_zero, fun v _ hv ha =>
    ⟨brakingDistance_formula _ hv, (sum_brakingSteps ha v v le_rfl).symm, brakingDistance_of_le⟩⟩

/-! ### The step, by the state of the lane (R5, R8 to R10) -/

theorem travelAfter_of_le {t n : Nat} (h : t + n ≤ Config.maxTravel) : travelAfter t n = t + n := Nat.min_eq_left h

section
variable {l : Lane} {near : Target} {rest : List Target}

theorem stepLane_of_ramp (hs : l.state = .brake) (hb : l.brake = some .ramp) : stepLane l = rampStep l := by
  simp [stepLane, hs, hb]

theorem stepLane_of_no_target (hb : l.brake ≠ some .ramp) (ht : l.targets = []) : stepLane l = freeStep l := by
  simp [stepLane, hb, ht]

theorem stepLane_of_brake (hs : l.state = .brake) (hb : l.brake ≠ some .ramp) (ht : l.targets = near :: rest) :
    stepLane l = brakingStep l near.travel := by
  simp [stepLane, hs, hb, ht]

theorem stepLane_of_run (hs : l.state = .run) (ht : l.targets = near :: rest) :
    stepLane l = targetStep l near.travel := by
  simp [stepLane, hs, ht]

/-- A braking step toward a target ahead ends short of it or on it (R9). -/
theorem brakingStep_of_ahead {nearest : Nat} (hn : l.travel ≤ nearest) (hm : nearest ≤ Config.maxTravel) :
    brakingStep l nearest =
      { lane := { l with
          state := .brake, brake := some .target, velocity := brakingVelocity l.velocity l.accel
          travel := l.travel + min (brakingVelocity l.velocity l.accel) (nearest - l.travel) }
        reached := decide (nearest - l.travel ≤ brakingVelocity l.velocity l.accel)
        ramp := false, braking := brakingVelocity l.velocity l.accel } := by
  have ht := travelAfter_of_le (t := l.travel) (n := min (brakingVelocity l.velocity l.accel) (nearest - l.travel))
    (by omega)
  have hr : l.travel + min (brakingVelocity l.velocity l.accel) (nearest - l.travel) = nearest ↔
    nearest - l.travel ≤ brakingVelocity l.velocity l.accel := by omega
  simp only [brakingStep, ht, hr]

/-- A step of RUN that leaves the braking distance of its velocity is a normal step (R8). -/
theorem targetStep_of_room {nearest : Nat} (hm : nearest ≤ Config.maxTravel) (hn : l.travel ≤ nearest)
    (hr : rampedVelocity l.velocity l.cruise l.accel + brakingDistance (rampedVelocity l.velocity l.cruise l.accel) l.accel ≤
      nearest - l.travel) :
    targetStep l nearest =
      { lane := { l with
          velocity := rampedVelocity l.velocity l.cruise l.accel
          travel := l.travel + rampedVelocity l.velocity l.cruise l.accel }
        reached := decide (l.travel + rampedVelocity l.velocity l.cruise l.accel = nearest), ramp := false, braking := 0 } := by
  have ht := travelAfter_of_le (t := l.travel) (n := rampedVelocity l.velocity l.cruise l.accel) (by omega)
  simp only [targetStep, ht]
  rw [if_pos (by omega)]

/-- A step of RUN that does not is a braking step (R8). -/
theorem targetStep_of_no_room {nearest : Nat}
    (hr : nearest - l.travel < rampedVelocity l.velocity l.cruise l.accel +
      brakingDistance (rampedVelocity l.velocity l.cruise l.accel) l.accel) :
    targetStep l nearest = brakingStep l nearest := by
  simp only [targetStep]
  rw [if_neg (by omega)]

/-! ### Room to brake (R7 to R9, R13) -/

/-- The braking step of a lane that has its braking distance in hand: what is left still holds the braking distance, and a
step that covers all that is left is one of at most A. -/
theorem brakingVelocity_keeps_room {v a room : Nat} (ha : 1 ≤ a) (h : brakingDistance v a ≤ room) :
    brakingDistance (brakingVelocity v a) a ≤ room - min (brakingVelocity v a) room ∧
      (room ≤ brakingVelocity v a → brakingVelocity v a ≤ a) := by
  rcases Nat.lt_or_ge a v with hv | hv
  · have hb : brakingVelocity v a = v - a := if_pos hv
    rw [brakingDistance_of_gt ha hv] at h
    have := brakingDistance_eq_zero_iff (v := v - a) ha
    rw [hb]
    omega
  · have hb : brakingVelocity v a ≤ a := by unfold brakingVelocity; split_ifs <;> omega
    exact ⟨by rw [brakingDistance_of_le hb]; omega, fun _ => hb⟩

/-- What O30 says of a step toward a target. -/
def KeepsRoom (l : Lane) (nearest : Nat) (r : StepResult) : Prop :=
  (r.reached = true → r.braking ≤ l.accel) ∧
    (r.reached = false → (r.lane.state = .run ∨ r.lane.state = .brake ∧ r.lane.brake = some .target) ∧
      brakingDistance r.lane.velocity r.lane.accel ≤ nearest - r.lane.travel ∧ r.lane.accel = l.accel)

theorem brakingStep_keeps_room {nearest : Nat} (ha : 1 ≤ l.accel) (hn : l.travel ≤ nearest)
    (hm : nearest ≤ Config.maxTravel) (h : brakingDistance l.velocity l.accel ≤ nearest - l.travel) :
    KeepsRoom l nearest (brakingStep l nearest) := by
  obtain ⟨hroom, hland⟩ := brakingVelocity_keeps_room ha h
  rw [brakingStep_of_ahead hn hm]
  refine ⟨fun hr => hland (of_decide_eq_true hr), fun _ => ⟨.inr ⟨rfl, rfl⟩, ?_, rfl⟩⟩
  simp only
  omega

theorem targetStep_keeps_room {nearest : Nat} (hs : l.state = .run) (ha : 1 ≤ l.accel) (hn : l.travel ≤ nearest)
    (hm : nearest ≤ Config.maxTravel) (h : brakingDistance l.velocity l.accel ≤ nearest - l.travel) :
    KeepsRoom l nearest (targetStep l nearest) := by
  rcases Nat.lt_or_ge (nearest - l.travel) (rampedVelocity l.velocity l.cruise l.accel +
      brakingDistance (rampedVelocity l.velocity l.cruise l.accel) l.accel) with hr | hr
  · rw [targetStep_of_no_room hr]
    exact brakingStep_keeps_room ha hn hm h
  · rw [targetStep_of_room hm hn hr]
    refine ⟨fun _ => Nat.zero_le _, fun _ => ⟨.inl hs, ?_, rfl⟩⟩
    simp only
    omega

end

/-- Settles O30: the tested step of RUN and the braking step each keep the room. -/
theorem roomToBrakeIsKept : Obligations.RoomToBrakeIsKept := by
  intro l near rest hl ht hs h
  obtain ⟨hahead, hmax⟩ := hl.ahead near (by simp [ht])
  rcases hs with hs | ⟨hs, hb⟩
  · rw [stepLane_of_run hs ht]
    exact targetStep_keeps_room hs hl.accel.1 hahead.le hmax h
  · rw [stepLane_of_brake hs (by simp [hb]) ht]
    exact brakingStep_keeps_room hl.accel.1 hahead.le hmax h

end Sys2Proof.Machine

namespace Sys2Proof.Machine

/-! ### Updates that leave every lane alone -/

section
variable (s : State)

@[simp] theorem State.addReference_lanes (c : Content) : (s.addReference c).lanes = s.lanes := by cases c <;> rfl
@[simp] theorem State.dropReference_lanes (c : Content) : (s.dropReference c).lanes = s.lanes := by cases c <;> rfl
@[simp] theorem State.joinView_lanes (k : Nat) (c : Content) : (s.joinView k c).lanes = s.lanes := by cases c <;> rfl
@[simp] theorem State.leaveView_lanes (k : Nat) (c : Content) : (s.leaveView k c).lanes = s.lanes := by cases c <;> rfl

/-- Work done once for each element of a list leaves the lanes alone when each piece does. -/
theorem foldl_keeps_lanes {α : Type} {f : State → α → State} (h : ∀ s a, (f s a).lanes = s.lanes) (as : List α)
    (s : State) : (as.foldl f s).lanes = s.lanes := by
  induction as generalizing s with
  | nil => rfl
  | cons a as ih => exact (ih (f s a)).trans (h s a)

@[simp] theorem State.takeRefresh_lanes : s.takeRefresh.lanes = s.lanes := by
  rcases s.takeRefresh_cases with ⟨-, h⟩ | ⟨slot, rest, x, -, -, h⟩ <;> rw [h]

@[simp] theorem State.offer_lanes (k : Nat) : (s.offer k).lanes = s.lanes := by
  unfold State.offer
  split
  · rfl
  · split
    · split <;> rfl
    · rw [State.takeRefresh_lanes]

@[simp] theorem State.offerView_lanes (k : Nat) : (s.offerView k).lanes = s.lanes := by
  unfold State.offerView
  split
  · exact foldl_keeps_lanes State.offer_lanes _ s
  · rfl

@[simp] theorem State.checkSymbol_lanes (k : Nat) : (s.checkSymbol k).lanes = s.lanes := by
  unfold State.checkSymbol
  split
  · split
    · simp
    · rfl
  · rfl

@[simp] theorem State.checkSymbols_lanes : s.checkSymbols.lanes = s.lanes :=
  foldl_keeps_lanes State.checkSymbol_lanes _ s

@[simp] theorem State.flashPart_lanes (i : LaneId) : (s.flashPart i).lanes = s.lanes :=
  foldl_keeps_lanes (fun s k => s.updItem_lanes k Item.countFlash) _ s

@[simp] theorem State.compositorFrame_lanes : s.compositorFrame.lanes = s.lanes := by
  unfold State.compositorFrame
  split
  · rfl
  · simp only
    split <;> rfl
  · rfl

@[simp] theorem State.concludeRefresh_lanes (f : Formatting) : (s.concludeRefresh f).lanes = s.lanes := by
  unfold State.concludeRefresh
  split
  · rfl
  · split
    · rfl
    · split
      · rfl
      · simp only
        split <;> rfl

@[simp] theorem State.offerFrame_lanes (f : Frame) : (s.offerFrame f).lanes = s.lanes := by
  unfold State.offerFrame
  split
  · rfl
  · simp only
    split <;> rfl

@[simp] theorem State.examine_lanes (tick fuel : Nat) (bs : List Byte) :
    (State.examine tick fuel bs s).lanes = s.lanes := by
  induction fuel generalizing bs s with
  | zero => rfl
  | succ fuel ih =>
    cases bs with
    | nil => rfl
    | cons b rest =>
      unfold State.examine
      split
      · rw [ih]; split <;> rfl
      · simp only
        split_ifs <;> simp [ih]

@[simp] theorem State.byteArrives_lanes (b : Byte) : (s.byteArrives b).lanes = s.lanes := State.examine_lanes _ _ _ _

@[simp] theorem State.dropFrame_lanes : s.dropFrame.lanes = s.lanes := by
  unfold State.dropFrame
  split <;> rfl

theorem State.lane_congr {s t : State} (h : t.lanes = s.lanes) (i : LaneId) : t.lane i = s.lane i := by
  simp only [State.lane, h]

end

/-! ### Requests whose rule leaves every lane alone -/

/-- A rule that leaves the lanes alone whatever its request carries. -/
def RuleKeepsLanes (rule : List Byte → State → State × Reply) : Prop := ∀ b s, (rule b s).1.lanes = s.lanes

theorem withGroup_lanes {b : List Byte} {s : State} {rule : GroupId → State × Reply}
    (h : ∀ g, (rule g).1.lanes = s.lanes) : (withGroup b s rule).1.lanes = s.lanes := by
  unfold withGroup; split
  · exact h _
  · rfl

theorem withLane_lanes {b : List Byte} {s : State} {rule : LaneId → State × Reply}
    (h : ∀ i, (rule i).1.lanes = s.lanes) : (withLane b s rule).1.lanes = s.lanes := by
  unfold withLane; split
  · exact h _
  · rfl

theorem withItem_lanes {b : List Byte} {s : State} {rule : Nat → Item → State × Reply}
    (h : ∀ k it, (rule k it).1.lanes = s.lanes) : (withItem b s rule).1.lanes = s.lanes := by
  unfold withItem; split
  · exact h _ _
  · rfl

theorem withSymbol_lanes {b : List Byte} {s : State} {rule : Nat → SymbolRec → State × Reply}
    (h : ∀ k r, (rule k r).1.lanes = s.lanes) : (withSymbol b s rule).1.lanes = s.lanes := by
  unfold withSymbol; split
  · exact h _ _
  · rfl

theorem withCue_lanes {b : List Byte} {s : State} {rule : LaneId → CueId → State × Reply}
    (h : ∀ i k, (rule i k).1.lanes = s.lanes) : (withCue b s rule).1.lanes = s.lanes := by
  unfold withCue; split
  · exact h _ _
  · rfl

theorem identRule_lanes : RuleKeepsLanes identRule := fun _ _ => rfl

theorem eventEnableRule_lanes : RuleKeepsLanes eventEnableRule := fun _ _ => withGroup_lanes fun _ => rfl

theorem eventPriorityRule_lanes : RuleKeepsLanes eventPriorityRule := fun b s => withGroup_lanes fun g => by
  split <;> rfl

theorem eventSummaryRule_lanes : RuleKeepsLanes eventSummaryRule := fun _ _ => rfl

theorem eventNextRule_lanes : RuleKeepsLanes eventNextRule := fun b s => by unfold eventNextRule; split <;> rfl

theorem eventReadRule_lanes : RuleKeepsLanes eventReadRule := fun _ _ => withGroup_lanes fun _ => rfl

theorem attnMaskRule_lanes : RuleKeepsLanes attnMaskRule := fun b s => by unfold attnMaskRule; split <;> rfl

theorem laneQueryRule_lanes : RuleKeepsLanes laneQueryRule := fun _ _ => withLane_lanes fun _ => rfl

theorem itemReplaceRule_lanes : RuleKeepsLanes itemReplaceRule := fun b s => withItem_lanes fun k it => by
  split
  · rfl
  · split
    · rfl
    · split
      · rfl
      · split
        · rfl
        · simp

theorem itemPassesRule_lanes : RuleKeepsLanes itemPassesRule := fun _ _ => withItem_lanes fun _ _ => rfl

theorem itemQueryRule_lanes : RuleKeepsLanes itemQueryRule := fun _ _ => withItem_lanes fun _ _ => rfl

theorem runListRule_lanes : RuleKeepsLanes runListRule := fun _ _ => withLane_lanes fun _ => rfl

theorem cueQueryRule_lanes : RuleKeepsLanes cueQueryRule := fun _ _ => withCue_lanes fun _ _ => rfl

theorem symDefineRule_lanes : RuleKeepsLanes symDefineRule := fun b s => by
  unfold symDefineRule
  simp only
  split
  · rfl
  · split_ifs
    · rfl
    · rfl
    · split <;> rfl

theorem symPriceRule_lanes : RuleKeepsLanes symPriceRule := fun b s => withSymbol_lanes fun k r => by
  simp only
  split_ifs <;> simp

theorem symReferenceRule_lanes : RuleKeepsLanes symReferenceRule := fun b s => withSymbol_lanes fun k r => by
  simp only
  split_ifs <;> simp

theorem symHaltRule_lanes : RuleKeepsLanes symHaltRule := fun b s => withSymbol_lanes fun k r => by
  split_ifs <;> simp

theorem symResumeRule_lanes : RuleKeepsLanes symResumeRule := fun b s => withSymbol_lanes fun k r => by
  split_ifs <;> simp

theorem symRemoveRule_lanes : RuleKeepsLanes symRemoveRule := fun b s => withSymbol_lanes fun k r => by
  split_ifs <;> rfl

theorem symQueryRule_lanes : RuleKeepsLanes symQueryRule := fun _ _ => withSymbol_lanes fun _ _ => rfl

theorem symScanRule_lanes : RuleKeepsLanes symScanRule := fun b s => by
  unfold symScanRule; simp only; split <;> rfl

theorem classSetupRule_lanes : RuleKeepsLanes classSetupRule := fun b s => by unfold classSetupRule; split <;> rfl

theorem templateSetRule_lanes : RuleKeepsLanes templateSetRule := fun b s => by
  unfold templateSetRule
  split
  · split_ifs <;> rfl
  · rfl

theorem templateQueryRule_lanes : RuleKeepsLanes templateQueryRule := fun b s => by
  unfold templateQueryRule; split <;> rfl

theorem textCreateRule_lanes : RuleKeepsLanes textCreateRule := fun b s => by
  unfold textCreateRule; simp only; split_ifs <;> rfl

theorem textWriteRule_lanes : RuleKeepsLanes textWriteRule := fun b s => by
  unfold textWriteRule
  simp only
  split
  · rfl
  · split_ifs <;> rfl

theorem textFreeRule_lanes : RuleKeepsLanes textFreeRule := fun b s => by
  unfold textFreeRule
  simp only
  split
  · rfl
  · split_ifs <;> rfl

theorem faceSetupRule_lanes : RuleKeepsLanes faceSetupRule := fun b s => by
  unfold faceSetupRule
  simp only
  split
  · rfl
  · split_ifs <;> rfl

theorem glyphStart_lanes (s : State) (k : Fin 4) (code advance : Nat) (data : List Byte) :
    (glyphStart s k code advance data).1.lanes = s.lanes := by
  unfold glyphStart; simp only; split_ifs <;> rfl

theorem glyphContinue_lanes (s : State) (k : Fin 4) (code offset : Nat) (data : List Byte) :
    (glyphContinue s k code offset data).1.lanes = s.lanes := by
  unfold glyphContinue
  simp only
  split
  · rfl
  · split_ifs <;> rfl

theorem glyphLoadRule_lanes : RuleKeepsLanes glyphLoadRule := fun b s => by
  unfold glyphLoadRule
  split
  · rfl
  · simp only
    split_ifs
    · rfl
    · exact glyphStart_lanes _ _ _ _ _
    · exact glyphContinue_lanes _ _ _ _ _

theorem storeQueryRule_lanes : RuleKeepsLanes storeQueryRule := fun _ _ => rfl

theorem timingQueryRule_lanes : RuleKeepsLanes timingQueryRule := fun _ _ => rfl

theorem gpiSetupRule_lanes : RuleKeepsLanes gpiSetupRule := fun b s => by unfold gpiSetupRule; split <;> rfl

theorem paletteSetRule_lanes : RuleKeepsLanes paletteSetRule := fun b s => by
  unfold paletteSetRule
  simp only
  split
  · rfl
  · split_ifs <;> rfl

theorem outputSetupRule_lanes : RuleKeepsLanes outputSetupRule := fun b s => by unfold outputSetupRule; split <;> rfl

end Sys2Proof.Machine

namespace Sys2Proof.Machine

/-! ### The step of a sound lane (R6 to R10) -/

section
variable {l : Lane}

/-- What a step of a moving lane is good for: only state, travel, velocity and brake kind change; the travel rises by at most
4,095, within 2^48 − 1 and no further than the nearest target, which is reached exactly when the travel equals it; the lane
is left in RUN, BRAKE or at rest. -/
structure StepSound (l : Lane) (r : StepResult) : Prop where
  keeps : ∃ st tr v b, r.lane = { l with state := st, travel := tr, velocity := v, brake := b }
  forward : l.travel ≤ r.lane.travel
  short : r.lane.travel ≤ l.travel + 4095
  bound : r.lane.travel ≤ Config.maxTravel
  velocity : r.lane.velocity ≤ 4095
  phase : r.lane.state = .run ∧ r.lane.brake = none ∨ r.lane.state = .brake ∧ r.lane.brake ≠ none ∨
    r.lane.state = .stopped ∧ r.lane.brake = none ∧ r.lane.velocity = 0
  near : ∀ near rest, l.targets = near :: rest →
    r.lane.travel ≤ near.travel ∧ (r.reached = true ↔ r.lane.travel = near.travel)
  free : l.targets = [] → r.reached = false

theorem rampedVelocity_le {v c a : Nat} (hv : v ≤ 4095) (hc : c ≤ 4095) : rampedVelocity v c a ≤ 4095 := by
  unfold rampedVelocity; split_ifs <;> omega

theorem brakingVelocity_le {v a : Nat} (hv : v ≤ 4095) (ha : a ≤ 1023) : brakingVelocity v a ≤ 4095 := by
  unfold brakingVelocity; split_ifs <;> omega

theorem freeStep_sound (h : l.Sound) (ht : l.targets = []) : StepSound l (freeStep l) := by
  have hv := rampedVelocity_le (a := l.accel) h.velocity h.cruise
  have htr := h.travel
  refine ⟨⟨_, _, _, _, rfl⟩, ?_, ?_, Nat.min_le_right _ _, hv, .inl ⟨rfl, rfl⟩, fun near rest h => ?_, fun _ => rfl⟩
  · simp only [freeStep, travelAfter]; omega
  · simp only [freeStep, travelAfter]; omega
  · rw [ht] at h; cases h

theorem brakingStep_sound (h : l.Sound) {near : Target} {rest : List Target} (ht : l.targets = near :: rest) :
    StepSound l (brakingStep l near.travel) := by
  have hv := brakingVelocity_le h.velocity h.accel.2
  obtain ⟨hahead, hmax⟩ := h.ahead near (by simp [ht])
  rw [brakingStep_of_ahead hahead.le hmax]
  refine ⟨⟨_, _, _, _, rfl⟩, ?_, ?_, ?_, hv, .inr (.inl ⟨rfl, by simp⟩), fun near' rest' h => ?_, fun h => ?_⟩
  · simp only; omega
  · simp only; omega
  · simp only; omega
  · obtain ⟨rfl, rfl⟩ : near = near' ∧ rest = rest' := by simpa [ht] using h
    simp only [decide_eq_true_eq]
    omega
  · rw [ht] at h; cases h

theorem targetStep_sound (h : l.Sound) (hs : l.state = .run) {near : Target} {rest : List Target}
    (ht : l.targets = near :: rest) : StepSound l (targetStep l near.travel) := by
  rcases Nat.lt_or_ge (near.travel - l.travel) (rampedVelocity l.velocity l.cruise l.accel +
      brakingDistance (rampedVelocity l.velocity l.cruise l.accel) l.accel) with hr | hr
  · rw [targetStep_of_no_room hr]
    exact brakingStep_sound h ht
  · have hv := rampedVelocity_le (a := l.accel) h.velocity h.cruise
    have hb : l.brake = none := by_contra fun hb => by simpa [hs] using h.brake.mp hb
    obtain ⟨hahead, hmax⟩ := h.ahead near (by simp [ht])
    rw [targetStep_of_room hmax hahead.le hr]
    refine ⟨⟨_, _, _, _, rfl⟩, ?_, ?_, ?_, hv, .inl ⟨hs, hb⟩, fun near' rest' h => ?_, fun h => ?_⟩
    · simp only; omega
    · simp only; omega
    · simp only; omega
    · obtain ⟨rfl, rfl⟩ : near = near' ∧ rest = rest' := by simpa [ht] using h
      exact ⟨by simp only; omega, by simp⟩
    · rw [ht] at h; cases h

/-- A ramp that ends (R10). -/
theorem rampStep_of_end (h : l.velocity ≤ l.accel) :
    rampStep l =
      { lane := { l with state := .stopped, brake := none, velocity := 0 }, reached := false, ramp := true, braking := 0 } := by
  simp [rampStep, Nat.sub_eq_zero_of_le h]

/-- A ramp step with no target pending (R10). -/
theorem rampStep_of_no_target (h : l.accel < l.velocity) (ht : l.targets = []) :
    rampStep l =
      { lane := { l with velocity := l.velocity - l.accel, travel := travelAfter l.travel (l.velocity - l.accel) }
        reached := false, ramp := true, braking := l.velocity - l.accel } := by
  simp only [rampStep, ht]
  rw [if_neg (by omega)]

/-- A ramp step toward a target ahead ends short of it or on it (R10). -/
theorem rampStep_of_ahead (h : l.accel < l.velocity) {near : Target} {rest : List Target} (ht : l.targets = near :: rest)
    (hn : l.travel ≤ near.travel) (hm : near.travel ≤ Config.maxTravel) :
    rampStep l =
      { lane := { l with
          velocity := l.velocity - l.accel
          travel := l.travel + min (l.velocity - l.accel) (near.travel - l.travel) }
        reached := decide (near.travel - l.travel ≤ l.velocity - l.accel), ramp := true
        braking := l.velocity - l.accel } := by
  have htr := travelAfter_of_le (t := l.travel) (n := min (l.velocity - l.accel) (near.travel - l.travel)) (by omega)
  have hr : l.travel + min (l.velocity - l.accel) (near.travel - l.travel) = near.travel ↔
    near.travel - l.travel ≤ l.velocity - l.accel := by omega
  simp only [rampStep, ht, htr, hr]
  rw [if_neg (by omega)]

theorem rampStep_sound (h : l.Sound) (hs : l.state = .brake) : StepSound l (rampStep l) := by
  have hv := h.velocity
  have htr := h.travel
  have hb : l.brake ≠ none := h.brake.mpr hs
  rcases Nat.lt_or_ge l.accel l.velocity with hlt | hge
  · cases ht : l.targets with
    | nil =>
      rw [rampStep_of_no_target hlt ht]
      refine ⟨⟨_, _, _, _, rfl⟩, ?_, ?_, Nat.min_le_right _ _, ?_, .inr (.inl ⟨hs, hb⟩), fun near rest h => ?_,
        fun _ => rfl⟩
      · simp only [travelAfter]; omega
      · simp only [travelAfter]; omega
      · simp only; omega
      · rw [ht] at h; cases h
    | cons near rest =>
      obtain ⟨hahead, hmax⟩ := h.ahead near (by simp [ht])
      rw [rampStep_of_ahead hlt ht hahead.le hmax]
      refine ⟨⟨_, _, _, _, rfl⟩, ?_, ?_, ?_, ?_, .inr (.inl ⟨hs, hb⟩), fun near' rest' h => ?_, fun h => ?_⟩
      · simp only; omega
      · simp only; omega
      · simp only; omega
      · simp only; omega
      · obtain ⟨rfl, rfl⟩ : near = near' ∧ rest = rest' := by simpa [ht] using h
        simp only [decide_eq_true_eq]
        omega
      · rw [ht] at h; cases h
  · rw [rampStep_of_end hge]
    refine ⟨⟨_, _, _, _, rfl⟩, le_rfl, Nat.le_add_right _ _, htr, Nat.zero_le _, .inr (.inr ⟨rfl, rfl, rfl⟩),
      fun near rest ht => ?_, fun _ => rfl⟩
    obtain ⟨hahead, -⟩ := h.ahead near (by simp [ht])
    simp only [Bool.false_eq_true, false_iff]
    omega

/-- The step of a moving lane that is sound. -/
theorem stepLane_sound (h : l.Sound) (hm : l.state = .run ∨ l.state = .brake) : StepSound l (stepLane l) := by
  by_cases hr : l.brake = some .ramp
  · have hs : l.state = .brake := h.brake.mp (by simp [hr])
    rw [stepLane_of_ramp hs hr]
    exact rampStep_sound h hs
  · cases ht : l.targets with
    | nil =>
      rw [stepLane_of_no_target hr ht]
      exact freeStep_sound h ht
    | cons near rest =>
      rcases hm with hs | hs
      · rw [stepLane_of_run hs ht]
        exact targetStep_sound h hs ht
      · rw [stepLane_of_brake hs hr ht]
        exact brakingStep_sound h ht

/-! ### Lanes that stay sound -/

/-- A sound lane that takes another state, with the velocity, brake kind, arm condition and dwell that go with it. -/
theorem Lane.Sound.enter (h : l.Sound) {st : LaneState} {v d : Nat} {b : Option BrakeKind} {a : Option Arm}
    (hv : v ≤ 4095) (hr : st ≠ .run → st ≠ .brake → v = 0) (hb : b ≠ none ↔ st = .brake) (ha : a ≠ none ↔ st = .armed)
    (hd : st ≠ .held → d = 0) : ({ l with state := st, velocity := v, brake := b, arm := a, dwell := d } : Lane).Sound :=
  { h with velocity := hv, rest := hr, brake := hb, arm := ha, dwell := hd }

theorem Lane.Sound.brake_eq (h : l.Sound) (hs : l.state ≠ .brake) : l.brake = none :=
  by_contra fun hb => hs (h.brake.mp hb)

theorem Lane.Sound.arm_eq (h : l.Sound) (hs : l.state ≠ .armed) : l.arm = none :=
  by_contra fun ha => hs (h.arm.mp ha)

/-- Stationary, and not held: what such a lane shows in its motion record. -/
theorem Lane.Sound.still (h : l.Sound) (hs : l.state ≠ .run ∧ l.state ≠ .brake ∧ l.state ≠ .held) :
    l.velocity = 0 ∧ l.brake = none ∧ l.dwell = 0 :=
  ⟨h.rest hs.1 hs.2.1, h.brake_eq hs.2.1, h.dwell hs.2.2⟩

theorem Lane.Sound.dropItem (h : l.Sound) (k : Nat) : (l.dropItem k).Sound :=
  { h with visible := (List.length_erase_le).trans h.visible }

theorem Lane.Sound.disarmCue (h : l.Sound) (k : CueId) : (l.disarmCue k).Sound := { h with }

theorem Lane.Sound.disarmCues (h : l.Sound) : l.disarmCues.Sound := { h with }

theorem Lane.Sound.setCue (h : l.Sound) (k : CueId) (c : Cue) : (l.setCue k c).Sound := { h with }

/-- A lane that starts from a stationary state (R18, R19). -/
theorem Lane.Sound.begun (h : l.Sound) (hs : l.state ≠ .run ∧ l.state ≠ .brake ∧ l.state ≠ .held) (r : ReturnState) :
    (l.begun r).Sound := by
  obtain ⟨hv, hb, hd⟩ := h.still hs
  unfold Lane.begun
  split
  · refine { h with rest := fun _ _ => hv, brake := ?_, arm := ?_, dwell := fun _ => hd }
    · cases r <;> simp [hb]
    · cases r <;> simp
  · refine { h with velocity := Nat.zero_le _, rest := fun _ _ => rfl, brake := by simp [hb], arm := by simp,
                    dwell := fun _ => hd, nextEntry := ?_ }
    have := h.travel; have := h.nextEntry
    split_ifs <;> assumption

theorem Lane.Sound.loadStaged (h : l.Sound) : l.loadStaged.Sound := by
  unfold Lane.loadStaged
  split
  · rename_i p hp
    obtain ⟨hc, ha⟩ := h.staged p hp
    exact { h with cruise := hc, accel := ha, staged := fun _ h => by cases h }
  · exact h

theorem Lane.Sound.cancelArm (h : l.Sound) (hs : l.state = .armed) : l.cancelArm.Sound := by
  obtain ⟨hv, hb, hd⟩ := h.still (by simp [hs])
  unfold Lane.cancelArm
  split
  · rename_i a _
    refine { h with rest := fun _ _ => hv, brake := ?_, arm := ?_, dwell := fun _ => hd } <;>
      cases a.returns <;> simp [ReturnState.laneState, hb]
  · exact h

theorem Lane.Sound.meet (h : l.Sound) :
    ({ l with arm := l.arm.map fun a => { a with met := true } } : Lane).Sound :=
  { h with arm := by simpa using h.arm }

/-- A lane that comes to a stop, whatever its state (R21, R23, R42). -/
theorem Lane.Sound.stopped (h : l.Sound) (ha : l.state ≠ .armed) (c : Bool) :
    ({ l with state := .stopped, velocity := 0, brake := none, dwell := 0, clearing := c } : Lane).Sound := by
  refine { h with velocity := Nat.zero_le _, rest := fun _ _ => rfl, brake := by simp, arm := ?_, dwell := fun _ => rfl }
  simp [h.arm_eq ha]

theorem Lane.Sound.setTargets (h : l.Sound) {ts : List Target}
    (ha : ∀ t ∈ ts, l.travel < t.travel ∧ t.travel ≤ Config.maxTravel)
    (ho : (ts.map Target.travel).Pairwise (· ≤ ·)) : ({ l with targets := ts } : Lane).Sound :=
  { h with ahead := ha, order := ho }

theorem Lane.Sound.insertTarget (h : l.Sound) {t : Target} (ht : l.travel < t.travel) (hm : t.travel ≤ Config.maxTravel) :
    ({ l with targets := Machine.insertTarget t l.targets } : Lane).Sound :=
  h.setTargets (fun _ hx => (mem_insertTarget.mp hx).elim (fun e => e ▸ ⟨ht, hm⟩) (h.ahead _)) (insertTarget_pairwise h.order)

theorem Lane.Sound.filterTargets (h : l.Sound) (p : Target → Bool) :
    ({ l with targets := l.targets.filter p } : Lane).Sound :=
  h.setTargets (fun _ hx => h.ahead _ (List.mem_of_mem_filter hx)) (h.order.sublist (List.filter_sublist.map _))

theorem Lane.Sound.dropCueTarget (h : l.Sound) (k : CueId) : (l.dropCueTarget k).Sound := by
  unfold Lane.dropCueTarget
  split
  · exact h.filterTargets _
  · exact h

/-- A CUE_SET whose stop target, if it places one, lies ahead (R64, R65). -/
theorem Lane.Sound.takeCue (h : l.Sound) (k : CueId) {c : Cue}
    (hc : c.action = .stopAt → l.travel < c.value ∧ c.value ≤ Config.maxTravel) : (l.takeCue k c).Sound := by
  have hd := (h.dropCueTarget k).setCue k c
  have ht : ((l.dropCueTarget k).setCue k c).travel = l.travel := by
    unfold Lane.dropCueTarget; split <;> rfl
  unfold Lane.takeCue
  simp only
  split
  · rename_i hs
    obtain ⟨h1, h2⟩ := hc hs
    exact hd.insertTarget (by rw [ht]; exact h1) h2
  · exact hd

end

/-! ### The landing (R11, R12) -/

/-- A lane that lands on the targets at its travel is sound when all else was ahead of it. -/
theorem Lane.land_sound {l : Lane} {r : StepResult} (h : l.Sound) (hm : l.state = .run ∨ l.state = .brake)
    (hr : StepSound l r) : (r.lane.land r.ramp).Sound := by
  obtain ⟨st, tr, v, b, e⟩ := hr.keeps
  have hbound := hr.bound
  have hnear := hr.near
  rw [e] at hbound hnear ⊢
  have hle : ∀ t ∈ l.targets, tr ≤ t.travel := by
    intro t ht
    cases hts : l.targets with
    | nil => simp [hts] at ht
    | cons near rest =>
      have h1 := (hnear near rest hts).1
      have h2 := h.order
      rw [hts, List.map_cons, List.pairwise_cons] at h2
      rcases List.mem_cons.mp (hts ▸ ht) with rfl | ht
      · exact h1
      · exact h1.trans (h2.1 _ (List.mem_map_of_mem ht))
  have harm : l.arm = none := h.arm_eq (by rcases hm with e | e <;> simp [e])
  obtain ⟨cs, hcs⟩ := disarmCues_keeps
    (stopCues (Lane.landed { l with state := st, travel := tr, velocity := v, brake := b }))
    { l with state := st, travel := tr, velocity := v, brake := b }
  unfold Lane.land
  simp only [hcs]
  refine { h with
    travel := hbound, velocity := Nat.zero_le _, rest := fun _ _ => rfl
    brake := ?_, arm := ?_, dwell := ?_, ahead := ?_, order := h.order.sublist (List.filter_sublist.map _) }
  · split_ifs <;> simp
  · split_ifs <;> simp [harm]
  · split_ifs <;> simp
  · intro t ht
    obtain ⟨hmem, hne⟩ := List.mem_filter.mp ht
    have := hle t hmem
    have := of_decide_eq_true hne
    simp only at this ⊢
    exact ⟨by omega, (h.ahead t hmem).2⟩

/-- A lane whose step reaches no target is sound. -/
theorem StepSound.lane_sound {l : Lane} {r : StepResult} (h : l.Sound) (hm : l.state = .run ∨ l.state = .brake)
    (hr : StepSound l r) (hn : r.reached = false) : r.lane.Sound := by
  obtain ⟨st, tr, v, b, e⟩ := hr.keeps
  have hphase := hr.phase
  have hbound := hr.bound
  have hvel := hr.velocity
  have hnear := hr.near
  rw [e] at hphase hbound hvel hnear ⊢
  have harm : l.arm = none := h.arm_eq (by rcases hm with e | e <;> simp [e])
  have hdw : l.dwell = 0 := h.dwell (by rcases hm with e | e <;> simp [e])
  have hlt : ∀ t ∈ l.targets, tr < t.travel := by
    intro t ht
    cases hts : l.targets with
    | nil => simp [hts] at ht
    | cons near rest =>
      have h1 := hnear near rest hts
      have h2 := h.order
      rw [hts, List.map_cons, List.pairwise_cons] at h2
      have h3 : tr < near.travel := by
        have : tr ≠ near.travel := fun e => by simp [hn, e] at h1
        have := h1.1
        simp only at this
        omega
      rcases List.mem_cons.mp (hts ▸ ht) with rfl | ht
      · exact h3
      · exact h3.trans_le (h2.1 _ (List.mem_map_of_mem ht))
  refine { h with
    travel := hbound, velocity := hvel, rest := ?_, brake := ?_, arm := ?_, dwell := fun _ => hdw
    ahead := fun t ht => ⟨hlt t ht, (h.ahead t ht).2⟩ }
  all_goals rcases hphase with ⟨hs, hb⟩ | ⟨hs, hb⟩ | ⟨hs, hb, hv⟩ <;> simp_all

end Sys2Proof.Machine

namespace Sys2Proof.Machine

/-! ### The table of stops (R20) -/

section
variable {s : State} {i : LaneId} {late : LaneSet}

theorem applyStop_of_still {m : StopMode} (hs : (s.lane i).state = .off ∨ (s.lane i).state = .idle ∨
    (s.lane i).state = .stopped ∨ (s.lane i).state = .frozen) : s.applyStop late i m = none := by
  rcases hs with hs | hs | hs | hs <;> simp [State.applyStop, hs]

theorem applyStop_armed_now (hs : (s.lane i).state = .armed) :
    s.applyStop late i .now = some (s.updLane i Lane.cancelArm) := by
  simp [State.applyStop, hs]

theorem applyStop_armed_other {m : StopMode} (hs : (s.lane i).state = .armed) (hm : m ≠ .now) :
    s.applyStop late i m = none := by
  cases m <;> simp [State.applyStop, hs] at hm ⊢

theorem applyStop_now
    (hs : (s.lane i).state = .run ∨ (s.lane i).state = .brake ∨ (s.lane i).state = .held) :
    s.applyStop late i .now = some (s.stopNow late i) := by
  rcases hs with hs | hs | hs <;> simp [State.applyStop, hs]

theorem applyStop_moving_ramp (hs : (s.lane i).state = .run ∨ (s.lane i).state = .brake) :
    s.applyStop late i .ramp =
      if (s.lane i).brake = some .ramp then none
      else some (s.setLane i { s.lane i with state := .brake, brake := some .ramp }) := by
  rcases hs with hs | hs <;> simp [State.applyStop, hs]

theorem applyStop_moving_clear (hs : (s.lane i).state = .run ∨ (s.lane i).state = .brake) :
    s.applyStop late i .clear =
      if (s.lane i).brake = some .ramp ∨ (s.lane i).clearing = true then none
      else some (s.setLane i { s.lane i with clearing := true }) := by
  rcases hs with hs | hs <;> simp [State.applyStop, hs]

theorem applyStop_held_ramp (hs : (s.lane i).state = .held) :
    s.applyStop late i .ramp =
      some ((s.setLane i { s.lane i with state := .stopped, dwell := 0 }).raise (.stopped i)) := by
  simp [State.applyStop, hs]

theorem applyStop_held_clear (hs : (s.lane i).state = .held) :
    s.applyStop late i .clear =
      if (s.lane i).clearing = true then none else some (s.setLane i { s.lane i with clearing := true }) := by
  simp [State.applyStop, hs]

end

/-! ### The answer to a frame start, by the state of the lane (R5) -/

section
variable {s : State} {i : LaneId}

theorem answerFrame_of_bare (hs : (s.lane i).state = .off ∨ (s.lane i).state = .idle ∨ (s.lane i).state = .frozen) :
    s.answerFrame i = s := by
  rcases hs with hs | hs | hs <;> simp [State.answerFrame, hs]

/-- What the countdown leaves of a state, for a lane ARMED. -/
def State.armedFlash (s : State) (i : LaneId) : State :=
  if (s.lane i).arm.any (fun a => decide (a.returns = .stopped)) then s.flashPart i else s

theorem answerFrame_of_armed (hs : (s.lane i).state = .armed) :
    s.answerFrame i =
      if ((s.armedFlash i).lane i).startDue then (s.armedFlash i).startArmed i else s.armedFlash i := by
  unfold State.answerFrame
  rw [hs]
  rfl

theorem answerFrame_of_moving (hs : (s.lane i).state = .run ∨ (s.lane i).state = .brake) :
    s.answerFrame i = (s.flashPart i).advance i := by
  rcases hs with hs | hs <;> simp [State.answerFrame, hs]

theorem answerFrame_of_held (hs : (s.lane i).state = .held) : s.answerFrame i = (s.flashPart i).countDwell i := by
  simp [State.answerFrame, hs]

theorem answerFrame_of_stopped (hs : (s.lane i).state = .stopped) : s.answerFrame i = s.flashPart i := by
  simp [State.answerFrame, hs]

@[simp] theorem State.armedFlash_lanes (s : State) (i : LaneId) : (s.armedFlash i).lanes = s.lanes := by
  unfold State.armedFlash; split
  · exact s.flashPart_lanes i
  · rfl

end

/-! ### Work that keeps every lane sound -/

/-- Every lane is sound. -/
def LanesSound (s : State) : Prop := ∀ i, (s.lane i).Sound

/-- t keeps the lanes of s sound, and moves none of them. -/
structure LanesTame (s t : State) : Prop where
  sound : LanesSound s → LanesSound t
  travel : ∀ i, (t.lane i).travel = (s.lane i).travel

section
variable {s t u : State} {i : LaneId}

theorem LanesTame.refl (s : State) : LanesTame s s := ⟨id, fun _ => rfl⟩

theorem LanesTame.trans (a : LanesTame s t) (b : LanesTame t u) : LanesTame s u :=
  ⟨b.sound ∘ a.sound, fun i => (b.travel i).trans (a.travel i)⟩

theorem LanesTame.of_lanes (h : t.lanes = s.lanes) : LanesTame s t :=
  ⟨fun hs i => State.lane_congr h i ▸ hs i, fun i => by rw [State.lane_congr h i]⟩

theorem LanesTame.foldl {α : Type} {f : State → α → State} (h : ∀ s a, LanesTame s (f s a)) (as : List α) (s : State) :
    LanesTame s (as.foldl f s) := by
  induction as generalizing s with
  | nil => exact .refl s
  | cons a as ih => exact (h s a).trans (ih (f s a))

theorem LanesSound.setLane (h : LanesSound s) {l : Lane} (hl : l.Sound) : LanesSound (s.setLane i l) := fun j => by
  rw [State.lane_setLane]; split
  · exact hl
  · exact h j

theorem LanesTame.setLane {l : Lane} (hl : (s.lane i).Sound → l.Sound) (ht : l.travel = (s.lane i).travel) :
    LanesTame s (s.setLane i l) :=
  ⟨fun h => h.setLane (hl (h i)), fun j => by
    rw [State.lane_setLane]; split
    · subst j; exact ht
    · rfl⟩

theorem LanesTame.updLane {f : Lane → Lane} (hl : (s.lane i).Sound → (f (s.lane i)).Sound)
    (ht : (f (s.lane i)).travel = (s.lane i).travel) : LanesTame s (s.updLane i f) := .setLane hl ht

theorem LanesTame.raise (h : LanesTame s t) (f : Factor) : LanesTame s (t.raise f) := h.trans (.of_lanes rfl)

/-! ### Items freed and disposed of -/

theorem LanesTame.freeItem (s : State) (k : Nat) : LanesTame s (s.freeItem k) := by
  unfold State.freeItem
  split
  · exact .refl s
  · rename_i it _
    have hview : LanesTame s (if it.isVisible then s.leaveView k it.content else s) := by
      split
      · exact .of_lanes (s.leaveView_lanes k _)
      · exact .refl s
    exact (hview.trans (.updLane (fun h => h.dropItem k) rfl)).trans (.of_lanes (State.dropReference_lanes _ it.content))

theorem LanesTame.freeItems (s : State) (ks : List Nat) : LanesTame s (s.freeItems ks) := .foldl .freeItem ks s

theorem LanesTame.disposeItem (s : State) (i : LaneId) (k n : Nat) : LanesTame s (s.disposeItem i k n) := by
  unfold State.disposeItem
  split
  · exact (LanesTame.freeItem s k).raise _
  · exact (LanesTame.of_lanes (s.updItem_lanes k _)).trans (.updLane (fun h => { h with }) rfl)

/-! ### Starts, comings to rest and stops -/

theorem LanesTame.startFrom (s : State) (i : LaneId) (r : ReturnState)
    (hs : (s.lane i).state ≠ .run ∧ (s.lane i).state ≠ .brake ∧ (s.lane i).state ≠ .held) :
    LanesTame s (s.startFrom i r) := by
  rw [State.startFrom_eq]
  exact (LanesTame.setLane (fun h => h.begun hs r) (by unfold Lane.begun; split <;> rfl)).raise _

theorem LanesTame.startArmed (s : State) (i : LaneId) : LanesTame s (s.startArmed i) := by
  unfold State.startArmed
  split
  · split
    · rename_i hs
      exact .startFrom s i _ (by simp [hs])
    · exact .refl s
  · exact .refl s

theorem LanesTame.meetCondition (late : LaneSet) (s : State) (i : LaneId) : LanesTame s (s.meetCondition late i) := by
  unfold State.meetCondition
  split
  · exact .updLane Lane.Sound.meet rfl
  · exact .startArmed s i

theorem LanesTame.comesToRest (h : LanesTame s t) (late : LaneSet) (j : LaneId) : LanesTame s (t.comesToRest late j) :=
  h.trans (.foldl (.meetCondition late) _ t)

theorem LanesTame.pulses (h : LanesTame s t) (mask : LaneSet) : LanesTame s (t.pulses mask) :=
  h.trans (.foldl (fun s k => by
    unfold State.pulse
    split
    · exact .startArmed s k
    · exact .refl s) _ t)

theorem LanesTame.stopNow (s : State) (late : LaneSet) (i : LaneId) (hs : (s.lane i).state ≠ .armed) :
    LanesTame s (s.stopNow late i) := by
  have h : LanesTame s ((s.setLane i { s.lane i with
      state := .stopped, velocity := 0, brake := none, dwell := 0, clearing := false }).raise (.stopped i)) :=
    (LanesTame.setLane (fun h => h.stopped hs false) rfl).raise _
  unfold State.stopNow
  simp only
  split
  · exact h.comesToRest late i
  · exact h

theorem Lane.Sound.stopped_of_held {l : Lane} (h : l.Sound) (hs : l.state = .held) :
    ({ l with state := .stopped, dwell := 0 } : Lane).Sound :=
  { h with
    rest := fun _ _ => h.rest (by simp [hs]) (by simp [hs]), brake := by simp [h.brake_eq (by simp [hs])]
    arm := by simp [h.arm_eq (by simp [hs])], dwell := fun _ => rfl }

/-- A stop, by the table of R20. -/
theorem LanesTame.applyStop {late : LaneSet} {m : StopMode} (h : s.applyStop late i m = some t) : LanesTame s t := by
  have clear : LanesTame s (s.setLane i { s.lane i with clearing := true }) := .setLane (fun h => { h with }) rfl
  cases hs : (s.lane i).state with
  | off | idle | stopped | frozen => rw [applyStop_of_still (by simp [hs])] at h; cases h
  | armed =>
    cases m with
    | now =>
      rw [applyStop_armed_now hs] at h
      cases h
      exact .updLane (fun h => h.cancelArm hs) (by unfold Lane.cancelArm; split <;> rfl)
    | ramp | clear => rw [applyStop_armed_other hs (by simp)] at h; cases h
  | run | brake =>
    have hm : (s.lane i).state = .run ∨ (s.lane i).state = .brake := by simp [hs]
    have harm (h : (s.lane i).Sound) : (s.lane i).arm = none := h.arm_eq (by simp [hs])
    cases m with
    | now =>
      rw [applyStop_now (by simp [hs])] at h
      cases h
      exact .stopNow s late i (by simp [hs])
    | ramp =>
      rw [applyStop_moving_ramp hm] at h
      split at h <;> cases h
      exact .setLane (fun h => { h with
        rest := fun _ hb => absurd rfl hb, brake := by simp, dwell := fun _ => h.dwell (by simp [hs])
        arm := by simp [harm h] }) rfl
    | clear =>
      rw [applyStop_moving_clear hm] at h
      split at h <;> cases h
      exact clear
  | held =>
    cases m with
    | now =>
      rw [applyStop_now (by simp [hs])] at h
      cases h
      exact .stopNow s late i (by simp [hs])
    | ramp =>
      rw [applyStop_held_ramp hs] at h
      cases h
      exact LanesTame.raise (.setLane (fun h => h.stopped_of_held hs) rfl) _
    | clear =>
      rw [applyStop_held_clear hs] at h
      split at h <;> cases h
      exact clear

theorem LanesTame.endHold (s : State) (i : LaneId) (hs : (s.lane i).state = .held) : LanesTame s (s.endHold i) :=
  (LanesTame.updLane (fun h => { h with
    velocity := Nat.zero_le _, rest := fun hr _ => absurd rfl hr, brake := by simp
    arm := by simp [h.arm_eq (by simp [hs])], dwell := fun _ => rfl }) rfl).raise _

/-! ### The step part -/

/-- The step part of a moving advance moves its lane by at most 4,095, and keeps every lane sound. -/
theorem LanesSound.stepPart (h : LanesSound s) (hm : (s.lane i).state = .run ∨ (s.lane i).state = .brake) :
    LanesSound (s.stepPart i) ∧ ((s.stepPart i).lane i).travel ≤ (s.lane i).travel + 4095 := by
  have hr := stepLane_sound (h i) hm
  have after {u : State} {l : Lane} (hl : l.Sound) (ht : l.travel = (stepLane (s.lane i)).lane.travel)
      (hu : LanesTame (s.setLane i l) u) : LanesSound u ∧ (u.lane i).travel ≤ (s.lane i).travel + 4095 := by
    refine ⟨hu.sound (h.setLane hl), ?_⟩
    rw [hu.travel, State.lane_setLane_same, ht]
    exact hr.short
  unfold State.stepPart
  simp only
  split
  · obtain ⟨st, v, b, d, ts, cs, e⟩ := (stepLane (s.lane i)).lane.land_keeps (stepLane (s.lane i)).ramp
    refine after (Lane.land_sound (h i) hm hr) (by rw [e]) ?_
    unfold State.landOn
    simp only
    refine LanesTame.trans (.comesToRest ?_ 0 i) (.foldl (fun _ _ => LanesTame.pulses (.refl _) _) _ _)
    refine .of_lanes ?_
    split_ifs <;> simp [foldl_keeps_lanes (fun s _ => State.raise_lanes s _)]
  · rename_i hn
    have hl := hr.lane_sound (h i) hm (by simpa using hn)
    split
    · exact after hl rfl (((LanesTame.refl _).raise _).comesToRest 0 i)
    · exact after hl rfl (.refl _)

/-! ### The other parts of an advance -/

theorem LanesTame.retireFrom (i : LaneId) (ks : List Nat) (s : State) : LanesTame s (s.retireFrom i ks) := by
  induction ks generalizing s with
  | nil => exact .refl s
  | cons k ks ih =>
    unfold State.retireFrom
    split
    · rename_i it _
      split
      · split
        · refine LanesTame.trans ?_ (ih _)
          unfold State.retire
          refine LanesTame.trans ?_ (.disposeItem _ i k _)
          refine LanesTame.trans (.of_lanes ?_) (.updLane (fun h => h.dropItem k) rfl)
          rw [State.updItem_lanes, State.leaveView_lanes]
        · exact .refl s
      · exact .refl s
    · exact .refl s

theorem Lane.Sound.stopped_of_moving {l : Lane} (h : l.Sound) (hm : l.state = .run ∨ l.state = .brake) :
    ({ l with state := .stopped, velocity := 0, brake := none } : Lane).Sound :=
  { h with
    velocity := Nat.zero_le _, rest := fun _ _ => rfl, brake := by simp
    arm := by simp [h.arm_eq (by rcases hm with e | e <;> simp [e])]
    dwell := fun _ => h.dwell (by rcases hm with e | e <;> simp [e]) }

theorem LanesTame.clearPart (s : State) (i : LaneId) : LanesTame s (s.clearPart i) := by
  unfold State.clearPart
  simp only
  split
  · rename_i hc
    have hm : (s.lane i).state = .run ∨ (s.lane i).state = .brake := by
      simp only [Bool.and_eq_true, Lane.isMoving, Bool.or_eq_true, decide_eq_true_eq] at hc; exact hc.1.1
    exact (((LanesTame.setLane (fun h => h.stopped_of_moving hm) rfl).raise _).raise _).comesToRest 0 i
  · exact .refl s

theorem LanesTame.drainPart (s : State) (i : LaneId) : LanesTame s (s.drainPart i) := by
  unfold State.drainPart
  simp only
  split
  · rename_i hc
    have hm : (s.lane i).state = .run := by
      simp only [Bool.and_eq_true, decide_eq_true_eq] at hc; exact hc.1.1
    exact (((LanesTame.setLane (fun h => h.stopped_of_moving (.inl hm)) rfl).raise _).raise _).comesToRest 0 i
  · exact .refl s

/-- A hold target is placed beyond the travel: the window's right end lies at least 64 pixels, 4,096 units, past the hold
position, and the step of the advance is shorter (R39). -/
theorem holdTarget_ahead {l : Lane} (h : l.Sound) {before : Nat} (ht : l.travel ≤ before + 4095) {d : Option Nat}
    {x : Target} (hx : x ∈ holdTarget l (max l.nextEntry before) d) :
    l.travel < x.travel ∧ x.travel ≤ Config.maxTravel := by
  have hw := h.setup.width
  have hp := h.setup.hold
  unfold holdTarget at hx
  split at hx
  · simp only at hx
    split at hx
    · rename_i hm
      obtain rfl := List.mem_singleton.mp hx
      exact ⟨by simp only; omega, hm⟩
    · cases hx
  · cases hx

theorem Lane.Sound.insertTargets {l : Lane} (h : l.Sound) {new : List Target}
    (hn : ∀ x ∈ new, l.travel < x.travel ∧ x.travel ≤ Config.maxTravel) :
    ({ l with targets := new.foldl (fun ts t => Machine.insertTarget t ts) l.targets } : Lane).Sound := by
  induction new generalizing l with
  | nil => exact { h with }
  | cons x new ih =>
    obtain ⟨h1, h2⟩ := hn x (by simp)
    exact ih (h.insertTarget h1 h2) fun y hy => hn y (by simp [hy])

/-- An item that enters (R38, R39). -/
theorem enterItem_sound (h : LanesSound s) {before : Nat} (ht : (s.lane i).travel ≤ before + 4095)
    (hm : (s.lane i).mayEnter = true) (k : Nat) (it : Item) :
    LanesSound (s.enterItem i before k it) ∧ ((s.enterItem i before k it).lane i).travel = (s.lane i).travel := by
  have hlen : (s.lane i).visible.length < 64 := by
    simp only [Lane.mayEnter, Bool.and_eq_true, decide_eq_true_eq] at hm; exact hm.2
  have hl := (h i).insertTargets fun x hx => holdTarget_ahead (h i) ht (d := it.holdDwell) hx
  unfold State.enterItem
  simp only
  refine ⟨LanesTame.sound (.of_lanes (State.joinView_lanes _ k it.content)) (LanesSound.setLane (s := s) h ?_), ?_⟩
  · exact { hl with
      visible := by rw [List.length_append]; exact hlen
      nextEntry := Nat.min_le_right _ _ }
  · rw [State.lane_congr (State.joinView_lanes _ k it.content), State.raise_lane, State.lane_setLane_same]

theorem LanesTame.skipItem (s : State) (i : LaneId) (k : Nat) (it : Item) : LanesTame s (s.skipItem i k it) :=
  (LanesTame.updLane (fun h => h.dropItem k) rfl).trans (.disposeItem _ i k _)

theorem enterItems_sound (i : LaneId) (before fuel : Nat) (r : EntryRun) (h : LanesSound r.state)
    (ht : (r.state.lane i).travel ≤ before + 4095) : LanesSound (enterItems i before fuel r).state := by
  induction fuel generalizing r with
  | zero => exact h
  | succ fuel ih =>
    unfold enterItems
    split
    · exact h
    · split
      · exact h
      · rename_i hstop
        have hm : (r.state.lane i).mayEnter = true := by
          by_contra hf; simp [hf] at hstop
        split
        · exact h
        · rename_i slot _ _ _ it _
          split
          · simp only
            split
            · have hk := ((LanesTame.refl r.state).raise (.formatFault i)).trans (.skipItem _ i slot it)
              exact ih _ (hk.sound h) (by simpa only [hk.travel] using ht)
            · have hraise := (LanesTame.refl r.state).raise (.formatFault i)
              obtain ⟨h1, h2⟩ := enterItem_sound (hraise.sound h) (i := i) ht hm _ _
              exact ih _ h1 (by rw [h2]; exact ht)
          · obtain ⟨h1, h2⟩ := enterItem_sound h ht hm _ _
            exact ih _ h1 (by rw [h2]; exact ht)

theorem LanesTame.matchCue (s : State) (i : LaneId) (k : CueId) : LanesTame s (s.matchCue i k) := by
  unfold State.matchCue
  simp only
  refine .pulses (.raise ?_ _) _
  split
  · exact .refl s
  · exact .updLane (fun h => h.disarmCue k) rfl

theorem LanesTame.cueActions (s : State) (i : LaneId) (as : List CueAction) : LanesTame s (s.cueActions i as) := by
  have stop (u : State) (m : StopMode) : LanesTame u ((u.applyStop 0 i m).getD u) := by
    cases h : u.applyStop 0 i m with
    | none => exact .refl u
    | some v => exact .applyStop h
  have load : LanesTame s (if .loadStaged ∈ as then s.updLane i Lane.loadStaged else s) := by
    split
    · exact .updLane (fun h => h.loadStaged) (by unfold Lane.loadStaged; split <;> rfl)
    · exact .refl s
  have acts (u : State) : LanesTame u (if .stopNow ∈ as then (u.applyStop 0 i .now).getD u
      else if .stopRamp ∈ as then (u.applyStop 0 i .ramp).getD u else u) := by
    split
    · exact stop u .now
    · split
      · exact stop u .ramp
      · exact .refl u
  exact load.trans (acts _)

theorem LanesTame.cuePart (s : State) (i : LaneId) (v : CueView) : LanesTame s (s.cuePart i v) :=
  (LanesTame.foldl (fun s k => .matchCue s i k) _ s).trans (.cueActions _ i _)

/-- A moving advance (R5). -/
theorem LanesSound.advance (h : LanesSound s) (hm : (s.lane i).state = .run ∨ (s.lane i).state = .brake) :
    LanesSound (s.advance i) := by
  obtain ⟨hs, ht⟩ := h.stepPart hm
  have hprep := (LanesTame.retireFrom i ((s.stepPart i).lane i).visible (s.stepPart i)).trans (.clearPart _ i)
  have hentry := enterItems_sound i (s.lane i).travel
    ((((s.stepPart i).retirePart i).clearPart i).lane i).queued.length
    { state := ((s.stepPart i).retirePart i).clearPart i, entered := [], passed := [] } (hprep.sound hs)
    ((hprep.travel i).symm ▸ ht)
  have hcount (u : State) : LanesTame u (u.updLane i fun l => { l with runFrames := l.runFrames + 1 }) :=
    .updLane (fun h => { h with }) rfl
  exact (((LanesTame.drainPart _ i).trans (.cuePart _ i _)).trans (hcount _)).sound hentry

/-! ### Frame starts -/

/-- A lane's answer to a frame start (R5). -/
theorem LanesSound.answerFrame (h : LanesSound s) (i : LaneId) : LanesSound (s.answerFrame i) := by
  have hf : LanesTame s (s.flashPart i) := .of_lanes (s.flashPart_lanes i)
  have hlane : (s.flashPart i).lane i = s.lane i := State.lane_congr (s.flashPart_lanes i) i
  have hmove (hs : (s.lane i).state = .run ∨ (s.lane i).state = .brake) : LanesSound (s.answerFrame i) := by
    rw [answerFrame_of_moving hs]
    exact (hf.sound h).advance (by rwa [hlane])
  cases hs : (s.lane i).state with
  | off | idle | frozen => rwa [answerFrame_of_bare (by simp [hs])]
  | armed =>
    have hu : LanesTame s (s.armedFlash i) := .of_lanes (s.armedFlash_lanes i)
    rw [answerFrame_of_armed hs]
    split
    · exact (hu.trans (.startArmed _ i)).sound h
    · exact hu.sound h
  | run => exact hmove (.inl hs)
  | brake => exact hmove (.inr hs)
  | held =>
    rw [answerFrame_of_held hs]
    refine LanesTame.sound (hf.trans ?_) h
    unfold State.countDwell
    split
    · exact .endHold _ i (by rw [hlane, hs])
    · exact .updLane (fun h => { h with dwell := fun hd => absurd (show _ = _ by rw [hlane, hs]) hd }) rfl
  | stopped =>
    rw [answerFrame_of_stopped hs]
    exact hf.sound h

/-- A freeze that reaches a lane (R147). -/
theorem LanesTame.freezeLane (s : State) (i : LaneId) : LanesTame s (s.freezeLane i) := by
  have freeze : LanesTame s ((s.setLane i { s.lane i with
      state := .frozen, velocity := 0, brake := none, dwell := 0, arm := none }).raise (.frozen i)) :=
    (LanesTame.setLane (fun h => h.enter (Nat.zero_le _) (fun _ _ => rfl) (by simp) (by simp) fun _ => rfl) rfl).raise _
  unfold State.freezeLane
  simp only
  split <;> first | exact .refl s | exact freeze

theorem LanesSound.frameAct (h : LanesSound s) (freezing : Bool) (a : FrameAct) : LanesSound (s.frameAct freezing a) := by
  cases a with
  | lane i => exact h.answerFrame i
  | symbols => exact (LanesTame.of_lanes s.checkSymbols_lanes).sound h
  | freeze i =>
    unfold State.frameAct
    simp only
    split
    · exact (LanesTame.freezeLane s i).sound h
    · exact h

/-- A frame start (R130). -/
theorem LanesSound.frameStart (h : LanesSound s) (order : FrameOrder) (at_ : Nat) : LanesSound (s.frameStart order at_) := by
  have acts (freezing : Bool) (as : FrameOrder) (u : State) (hu : LanesSound u) :
      LanesSound (as.foldl (State.frameAct freezing) u) := by
    induction as generalizing u with
    | nil => exact hu
    | cons a as ih => exact ih _ (hu.frameAct freezing a)
  exact (LanesTame.of_lanes (State.compositorFrame_lanes _)).sound (acts _ _ _ h)

end

end Sys2Proof.Machine

namespace Sys2Proof.Machine

section
variable {s t : State} {i : LaneId} {b : List Byte}

/-! ### Clock, inputs and resets -/

theorem LanesSound.ite {p : Prop} [Decidable p] (hs : LanesSound s) (ht : LanesSound t) :
    LanesSound (if p then s else t) := by
  split <;> assumption

theorem LanesSound.periodExpiry (h : LanesSound s) (order : FrameOrder) : LanesSound (s.periodExpiry order) := by
  unfold State.periodExpiry
  split
  · exact h
  · exact h.frameStart order _

theorem LanesSound.windowEnd (h : LanesSound s) (order : FrameOrder) : LanesSound (s.windowEnd order) := by
  unfold State.windowEnd
  split
  · exact h.frameStart order _
  · exact h

theorem LanesSound.countPulse (h : LanesSound s) (order : FrameOrder) : LanesSound (s.countPulse order) := by
  unfold State.countPulse
  refine .ite (.ite (LanesSound.frameStart ?_ order _) ?_) ?_ <;> exact h

theorem LanesSound.lockedPulse (h : LanesSound s) (order : FrameOrder) : LanesSound (s.lockedPulse order) := by
  unfold State.lockedPulse
  refine .ite (LanesSound.frameStart ?_ order _) ?_ <;> exact h

/-- A reference pulse (R131 to R134). -/
theorem LanesSound.pulseAt (h : LanesSound s) (order : FrameOrder) : LanesSound (s.pulseAt order) := by
  unfold State.pulseAt
  split
  · exact h
  · exact h.countPulse order
  · exact h.countPulse order
  · split
    · refine LanesSound.countPulse ?_ order
      exact LanesSound.windowEnd (s := { s with clock := { s.clock with now := s.clock.windowDue } }) h order
    · exact h.lockedPulse order

theorem LanesTame.countedChange (s : State) (late : LaneSet) (n : GpiId) : LanesTame s (s.countedChange late n) := by
  unfold State.countedChange
  extract_lets g s1
  have h1 : LanesTame s s1 := .of_lanes rfl
  split
  · exact (h1.raise _).trans (.foldl (.meetCondition late) _ _)
  · exact h1

theorem LanesTame.levelChange (s : State) (n : GpiId) : LanesTame s (s.levelChange n) := by
  unfold State.levelChange
  split
  · exact .of_lanes rfl
  · refine LanesTame.trans (t := if s.gpi[n].due.any (fun t => decide (t ≤ s.clock.now)) then s.countedChange 0 n else s)
      ?_ (.of_lanes rfl)
    split_ifs
    · exact .countedChange s 0 n
    · exact .refl s

theorem Lane.powerOn_sound : Lane.powerOn.Sound where
  setup := ⟨by decide, by decide, by decide, by decide, by decide⟩
  travel := Nat.zero_le _
  nextEntry := Nat.zero_le _
  velocity := Nat.zero_le _
  cruise := by decide
  accel := by decide
  staged := by simp [Lane.powerOn]
  rest := fun _ _ => rfl
  brake := by decide
  arm := by decide
  dwell := fun _ => rfl
  ahead := fun _ h => by cases h
  order := .nil
  visible := Nat.zero_le _

theorem powerOn_sound (asserted : Bool) (tick : Nat) (levels : Vector Bool 4) (waiting : List Instr) :
    LanesSound (State.powerOn asserted tick levels waiting) := fun i => by
  have : (State.powerOn asserted tick levels waiting).lane i = Lane.powerOn := by simp [State.lane, State.powerOn]
  rw [this]
  exact Lane.powerOn_sound

/-- A lane whose motion record is cleared, in OFF or IDLE (R26, R28). -/
theorem Lane.Sound.resetMotion {l : Lane} (h : l.Sound) {st : LaneState} (hs : st = .off ∨ st = .idle) :
    ({ l.resetMotion with state := st } : Lane).Sound :=
  { h with
    travel := Nat.zero_le _, nextEntry := Nat.zero_le _, velocity := Nat.zero_le _, staged := by simp [Lane.resetMotion]
    rest := fun _ _ => rfl, brake := by rcases hs with rfl | rfl <;> simp [Lane.resetMotion]
    arm := by rcases hs with rfl | rfl <;> simp [Lane.resetMotion], dwell := fun _ => rfl
    ahead := by simp [Lane.resetMotion], order := .nil }

theorem Lane.Sound.softReset {l : Lane} (h : l.Sound) : l.softReset.Sound :=
  { h.resetMotion (st := if l.state = .off then .off else .idle) (by split_ifs <;> simp) with visible := Nat.zero_le _ }

theorem Lane.Sound.thaw {l : Lane} (h : l.Sound) : l.thaw.Sound := by
  unfold Lane.thaw
  split
  · rename_i hs
    obtain ⟨hv, hb, hd⟩ := h.still (by simp [hs])
    exact { h with
      rest := fun _ _ => hv, brake := by simp [hb], arm := by simp [h.arm_eq (by simp [hs])], dwell := fun _ => hd }
  · exact h

theorem LanesSound.map {f : Lane → Lane} (h : LanesSound s) (hf : ∀ l : Lane, l.Sound → (f l).Sound)
    (ht : t.lanes = s.lanes.map f) : LanesSound t := fun i => by
  have : t.lane i = f (s.lane i) := by simp [State.lane, ht]
  rw [this]
  exact hf _ (h i)

/-! ### Lane requests -/

/-- An item freed changes a lane in its run list alone. -/
theorem State.freeItem_lane (s : State) (k : Nat) (i : LaneId) :
    ∃ v q, (s.freeItem k).lane i = { s.lane i with visible := v, queued := q } := by
  unfold State.freeItem
  split
  · exact ⟨_, _, rfl⟩
  · rename_i it _
    extract_lets s1 s2 s3
    have h1 : s1.lane i = s.lane i := State.lane_congr (by unfold s1; split_ifs <;> simp) i
    have h3 : s3.lane i = s2.lane i := State.lane_congr (by unfold s3; simp) i
    change ∃ v q, s3.lane i = _
    rw [h3]
    unfold s2
    rw [State.lane_updLane]
    split_ifs with e
    · subst e; exact ⟨_, _, by rw [h1]; rfl⟩
    · exact ⟨_, _, by rw [h1]⟩

theorem State.freeItems_lane (ks : List Nat) (i : LaneId) :
    ∀ s : State, ∃ v q, (s.freeItems ks).lane i = { s.lane i with visible := v, queued := q } := by
  induction ks with
  | nil => exact fun _ => ⟨_, _, rfl⟩
  | cons k ks ih =>
    intro s
    obtain ⟨v, q, h⟩ := s.freeItem_lane k i
    obtain ⟨v', q', h'⟩ := ih (s.freeItem k)
    exact ⟨v', q', h'.trans (by rw [h])⟩

theorem field_one_lt (b : List Byte) (off : Nat) : field b off 1 < 256 := by
  have : (b.drop off).take 1 = [] ∨ ∃ x, (b.drop off).take 1 = [x] := by
    cases b.drop off with
    | nil => exact .inl rfl
    | cons x xs => exact .inr ⟨x, by simp⟩
  rcases this with h | ⟨x, h⟩
  · simp [field, beValue, h]
  · simp [field, beValue, h, x.isLt]

/-- The set-up fields that pass the check of R16 lie in the ranges of R1. -/
theorem setupOf_sound {p : LaneSetup} (h : setupOf b = some p) : p.Sound := by
  simp only [setupOf, Option.bind_eq_bind, Option.bind_eq_some_iff, Option.ite_none_right_eq_some, Option.some.injEq] at h
  obtain ⟨_, -, _, -, _, -, _, -, _, -, _, -, ⟨-, h16, h128, hband, -, h64, -, hwide, hhold⟩, rfl⟩ := h
  exact ⟨⟨h16, h128⟩, hband, ⟨h64, hwide⟩, hhold, by have := field_one_lt b 10; simp only; omega⟩

theorem withLane_sound {rule : LaneId → State × Reply} (h : LanesSound s) (hr : ∀ i, LanesSound (rule i).1) :
    LanesSound (withLane b s rule).1 := by
  unfold withLane
  split
  · exact hr _
  · exact h

theorem laneSetupRule_sound (h : LanesSound s) : LanesSound (laneSetupRule b s).1 := withLane_sound h fun i => by
  split
  · exact h
  · rename_i hu
    split
    · exact h
    · rename_i p hp
      split
      · exact h
      · have hs : (s.lane i).state = .off ∨ (s.lane i).state = .idle := by
          simp only [Lane.inUse] at hu
          cases hst : (s.lane i).state <;> simp [hst] at hu ⊢
        obtain ⟨hv, hb, hd⟩ := (h i).still (by rcases hs with e | e <;> simp [e])
        exact h.setLane { h i with
          setup := setupOf_sound hp, rest := fun _ _ => hv, brake := by simp [hb]
          arm := by simp [(h i).arm_eq (by rcases hs with e | e <;> simp [e])], dwell := fun _ => hd }

theorem laneOffRule_sound (h : LanesSound s) : LanesSound (laneOffRule b s).1 := withLane_sound h fun i => by
  split
  · rename_i hs
    have hf := (LanesTame.freeItems s (s.lane i).queued).sound h
    obtain ⟨v, q, hl⟩ := State.freeItems_lane (s.lane i).queued i s
    have hst : ((s.freeItems (s.lane i).queued).lane i).state = .idle := by rw [hl]; exact hs
    obtain ⟨hv, hb, hd⟩ := (hf i).still (by simp [hst])
    exact hf.setLane { (hf i).disarmCues with
      rest := fun _ _ => hv, brake := by simp [Lane.disarmCues, hb]
      arm := by simp [Lane.disarmCues, (hf i).arm_eq (by simp [hst])], dwell := fun _ => hd
      ahead := by simp, order := .nil }
  · exact h

theorem startNow_sound (h : LanesSound s) (i : LaneId) : LanesSound (startNow s i).1 := by
  unfold startNow
  simp only
  split
  · exact (LanesTame.startFrom s i .idle (by simp [*])).sound h
  · exact (LanesTame.startFrom s i .stopped (by simp [*])).sound h
  · exact (LanesTame.startArmed s i).sound h
  · rename_i hs
    split
    · exact h.setLane { h i with
        rest := fun hr _ => absurd rfl hr, brake := by simp, arm := by simp [(h i).arm_eq (by simp [hs])]
        dwell := fun _ => (h i).dwell (by simp [hs]) }
    · exact h
  all_goals exact h

theorem armRule_sound (h : LanesSound s) (i : LaneId) (code gpi mask : Nat) :
    LanesSound (armRule s i code gpi mask).1 := by
  unfold armRule
  split
  · exact h
  · rename_i r hr
    split
    · exact h
    · have hs : (s.lane i).state = .idle ∨ (s.lane i).state = .stopped := by
        cases hst : (s.lane i).state <;> simp [hst, armsFrom] at hr ⊢
      obtain ⟨-, hb, hd⟩ := (h i).still (by rcases hs with e | e <;> simp [e])
      exact h.setLane { h i with
        velocity := Nat.zero_le _, rest := fun _ _ => rfl, brake := by simp [hb], arm := by simp, dwell := fun _ => hd }

theorem laneStartRule_sound (h : LanesSound s) : LanesSound (laneStartRule b s).1 := withLane_sound h fun i => by
  simp only
  split_ifs
  · exact h
  · exact startNow_sound h i
  · exact armRule_sound h i _ _ _

theorem laneStopRule_sound (late : LaneSet) (h : LanesSound s) : LanesSound (laneStopRule late b s).1 :=
  withLane_sound h fun i => by
    split
    · exact h
    · split
      · rename_i u hu
        exact (LanesTame.applyStop hu).sound h
      · exact h

theorem laneSpeedRule_sound (h : LanesSound s) : LanesSound (laneSpeedRule b s).1 := withLane_sound h fun i => by
  split
  · exact h
  · exact h.setLane { h i with
      cruise := Nat.min_le_right _ _
      accel := ⟨le_min (Nat.le_max_right _ _) (by decide), Nat.min_le_right _ _⟩ }

theorem laneStageRule_sound (h : LanesSound s) : LanesSound (laneStageRule b s).1 := withLane_sound h fun i => by
  simp only
  split_ifs with h1 h2 h3
  · exact h
  · exact h.setLane { h i with staged := by simp }
  · exact h
  · refine h.setLane { h i with staged := fun p hp => ?_ }
    obtain rfl := Option.some.inj hp
    simp only [Config.maxVelocity, Config.maxAccel] at h3 ⊢
    omega

theorem laneResetRule_sound (h : LanesSound s) : LanesSound (laneResetRule b s).1 := withLane_sound h fun i => by
  split
  · exact h
  · have hf := (LanesTame.freeItems s ((s.lane i).visible ++ (s.lane i).queued)).sound h
    exact hf.setLane ((hf i).resetMotion (.inr rfl))

theorem holdReleaseRule_sound (h : LanesSound s) : LanesSound (holdReleaseRule b s).1 := withLane_sound h fun i => by
  split
  · rename_i hs
    exact (LanesTame.endHold s i hs).sound h
  · exact h

/-! ### Item and cue requests -/

theorem makeItem_sound (h : LanesSound s) {off : Nat} {ink : Fin 16} {c : Content} {place : Nat → Lane → Lane}
    (hp : ∀ k l, ∃ q, place k l = { l with queued := q }) : LanesSound (makeItem s i b off ink c place).1 := by
  unfold makeItem
  split
  · exact h
  · rename_i slot _
    obtain ⟨q, hq⟩ := hp slot (s.lane i)
    have hplace : (place slot (s.lane i)).Sound := hq ▸ { h i with }
    refine LanesTame.sound (.of_lanes (State.addReference_lanes _ c)) (LanesSound.setLane ?_ hplace)
    exact h

theorem itemAppendRule_sound (h : LanesSound s) : LanesSound (itemAppendRule b s).1 := withLane_sound h fun i => by
  split
  · exact h
  · split
    · exact h
    · split
      · exact h
      · exact makeItem_sound h fun _ _ => ⟨_, rfl⟩

/-- A place in the run list changes the queued items alone (R45). -/
theorem placeAt_queued {n : Nat} {place : Nat → Lane → Lane} (h : placeAt s i n = .ok place) (k : Nat) (l : Lane) :
    ∃ q, place k l = { l with queued := q } := by
  unfold placeAt at h
  simp only at h
  split_ifs at h
  · cases h; exact ⟨_, rfl⟩
  · split at h
    · cases h
    · split_ifs at h <;> cases h <;> exact ⟨_, rfl⟩

theorem itemInsertRule_sound (h : LanesSound s) : LanesSound (itemInsertRule b s).1 := withLane_sound h fun i => by
  split
  · exact h
  · split
    · exact h
    · split
      · exact h
      · rename_i hplace
        split
        · exact h
        · exact makeItem_sound h (placeAt_queued hplace)

theorem itemRemoveRule_sound (h : LanesSound s) : LanesSound (itemRemoveRule b s).1 := by
  unfold itemRemoveRule withItem
  split
  · simp only
    split
    · exact h
    · exact (LanesTame.freeItem s _).sound h
  · exact h

theorem runClearRule_sound (h : LanesSound s) : LanesSound (runClearRule b s).1 :=
  withLane_sound h fun _ => (LanesTame.freeItems s _).sound h

theorem withCue_sound {rule : LaneId → CueId → State × Reply} (h : LanesSound s) (hr : ∀ i k, LanesSound (rule i k).1) :
    LanesSound (withCue b s rule).1 := by
  unfold withCue
  split
  · exact hr _ _
  · exact h

/-- The value of a STOP_AT cue is a travel (R64, check 3). -/
theorem cueOf_stopAt {c : Cue} (h : cueOf b = some c) (ha : c.action = .stopAt) : c.value ≤ Config.maxTravel := by
  simp only [cueOf, Option.bind_eq_bind, Option.bind_eq_some_iff, Option.ite_none_left_eq_some, Option.some.injEq] at h
  obtain ⟨source, -, method, -, action, -, repeats, -, hok, rfl⟩ := h
  simp only at ha
  subst ha
  simp only [not_or, not_and, not_not, not_lt] at hok
  obtain ⟨-, -, hv, hs⟩ := hok
  rw [(hs trivial).1] at hv
  exact hv

/-- The travel of a STOP_AT cue that is not refused lies ahead (R64, check 5). -/
theorem cueRefusal_stopAt {c : Cue} (h : cueRefusal s i c = none) (ha : c.action = .stopAt) :
    (s.lane i).travel < c.value := by
  unfold cueRefusal at h
  simp only at h
  split at h
  · cases h
  · by_contra hle
    rw [if_pos ⟨ha, by omega⟩] at h
    cases h

theorem cueSetRule_sound (h : LanesSound s) : LanesSound (cueSetRule b s).1 := withCue_sound h fun i k => by
  split
  · exact h
  · split
    · exact h
    · rename_i c hc
      split
      · exact h
      · rename_i hr
        exact h.setLane ((h i).takeCue k fun ha => ⟨cueRefusal_stopAt hr ha, cueOf_stopAt hc ha⟩)

theorem cueClearRule_sound (h : LanesSound s) : LanesSound (cueClearRule b s).1 := withCue_sound h fun i k => by
  split
  · exact h.setLane (((h i).dropCueTarget k).disarmCue k)
  · exact h

/-! ### The other requests -/

theorem deviceResetRule_sound (h : LanesSound s) : LanesSound (deviceResetRule b s).1 := h.map (fun _ h => h.softReset) rfl

theorem outputResumeRule_sound (h : LanesSound s) : LanesSound (outputResumeRule b s).1 := by
  unfold outputResumeRule
  split
  · exact h.map (t := State.raise _ _) (fun _ h => h.thaw) rfl
  · exact h
  · exact h

theorem timingSetupRule_sound (order : FrameOrder) (h : LanesSound s) : LanesSound (timingSetupRule order b s).1 := by
  unfold timingSetupRule
  simp only
  split
  · exact h
  · split
    · exact h
    · simp only [accept_fst]
      split
      · refine LanesSound.frameStart ?_ order _
        exact h
      · exact h

/-! ### Commands -/

theorem inHand_sound {f : Frame} (h : LanesSound s) (hu : s.inHand f = some t) : LanesSound t := by
  unfold State.inHand at hu
  split at hu
  · split at hu <;> cases hu
    exact h
  · split at hu <;> cases hu
    exact h

/-- A request is served by its rule, refused, or not served at all; in each case the lanes stay sound when the rule keeps
them sound. -/
theorem serve_sound {k tag : Byte} {rule : List Byte → State → State × Reply}
    (hr : ∀ u, LanesSound u → LanesSound (rule b u).1) (h : LanesSound s) : LanesSound (serve k tag b rule s) := by
  unfold serve
  split
  · exact h
  · rename_i u hu
    split
    · exact hr u (inHand_sound h hu)
    · have := inHand_sound h hu
      exact this

theorem serve_sound_of_lanes {k tag : Byte} {rule : List Byte → State → State × Reply} (hr : RuleKeepsLanes rule)
    (h : LanesSound s) : LanesSound (serve k tag b rule s) :=
  serve_sound (fun u hu => (LanesTame.of_lanes (hr b u)).sound hu) h

end

end Sys2Proof.Machine

namespace Sys2Proof.Machine

/-- Every command keeps the lanes sound. -/
theorem exec_keeps_lanes_sound {c : Instr} {s t : State} (h : LanesSound s) (he : exec c s = .next t) : LanesSound t := by
  have lanes {u : State} (hu : u.lanes = s.lanes) : LanesSound u := (LanesTame.of_lanes hu).sound h
  cases c with
  | ident => cases he; exact serve_sound_of_lanes identRule_lanes h
  | deviceReset => cases he; exact serve_sound (fun _ => deviceResetRule_sound) h
  | eventEnable => cases he; exact serve_sound_of_lanes eventEnableRule_lanes h
  | eventPriority => cases he; exact serve_sound_of_lanes eventPriorityRule_lanes h
  | eventSummary => cases he; exact serve_sound_of_lanes eventSummaryRule_lanes h
  | eventNext => cases he; exact serve_sound_of_lanes eventNextRule_lanes h
  | eventRead => cases he; exact serve_sound_of_lanes eventReadRule_lanes h
  | attnMask => cases he; exact serve_sound_of_lanes attnMaskRule_lanes h
  | laneSetup => cases he; exact serve_sound (fun _ => laneSetupRule_sound) h
  | laneOff => cases he; exact serve_sound (fun _ => laneOffRule_sound) h
  | laneStart => cases he; exact serve_sound (fun _ => laneStartRule_sound) h
  | laneStop late => cases he; exact serve_sound (fun _ => laneStopRule_sound late) h
  | laneSpeed => cases he; exact serve_sound (fun _ => laneSpeedRule_sound) h
  | laneStage => cases he; exact serve_sound (fun _ => laneStageRule_sound) h
  | laneReset => cases he; exact serve_sound (fun _ => laneResetRule_sound) h
  | laneQuery => cases he; exact serve_sound_of_lanes laneQueryRule_lanes h
  | itemAppend => cases he; exact serve_sound (fun _ => itemAppendRule_sound) h
  | itemInsert => cases he; exact serve_sound (fun _ => itemInsertRule_sound) h
  | itemReplace => cases he; exact serve_sound_of_lanes itemReplaceRule_lanes h
  | itemRemove => cases he; exact serve_sound (fun _ => itemRemoveRule_sound) h
  | itemPasses => cases he; exact serve_sound_of_lanes itemPassesRule_lanes h
  | runClear => cases he; exact serve_sound (fun _ => runClearRule_sound) h
  | itemQuery => cases he; exact serve_sound_of_lanes itemQueryRule_lanes h
  | runList => cases he; exact serve_sound_of_lanes runListRule_lanes h
  | holdRelease => cases he; exact serve_sound (fun _ => holdReleaseRule_sound) h
  | cueSet => cases he; exact serve_sound (fun _ => cueSetRule_sound) h
  | cueClear => cases he; exact serve_sound (fun _ => cueClearRule_sound) h
  | cueQuery => cases he; exact serve_sound_of_lanes cueQueryRule_lanes h
  | symDefine => cases he; exact serve_sound_of_lanes symDefineRule_lanes h
  | symPrice => cases he; exact serve_sound_of_lanes symPriceRule_lanes h
  | symReference => cases he; exact serve_sound_of_lanes symReferenceRule_lanes h
  | symHalt => cases he; exact serve_sound_of_lanes symHaltRule_lanes h
  | symResume => cases he; exact serve_sound_of_lanes symResumeRule_lanes h
  | symRemove => cases he; exact serve_sound_of_lanes symRemoveRule_lanes h
  | symQuery => cases he; exact serve_sound_of_lanes symQueryRule_lanes h
  | symScan => cases he; exact serve_sound_of_lanes symScanRule_lanes h
  | classSetup => cases he; exact serve_sound_of_lanes classSetupRule_lanes h
  | templateSet => cases he; exact serve_sound_of_lanes templateSetRule_lanes h
  | templateQuery => cases he; exact serve_sound_of_lanes templateQueryRule_lanes h
  | textCreate => cases he; exact serve_sound_of_lanes textCreateRule_lanes h
  | textWrite => cases he; exact serve_sound_of_lanes textWriteRule_lanes h
  | textFree => cases he; exact serve_sound_of_lanes textFreeRule_lanes h
  | faceSetup => cases he; exact serve_sound_of_lanes faceSetupRule_lanes h
  | glyphLoad => cases he; exact serve_sound_of_lanes glyphLoadRule_lanes h
  | storeQuery => cases he; exact serve_sound_of_lanes storeQueryRule_lanes h
  | timingSetup _ order => cases he; exact serve_sound (fun _ => timingSetupRule_sound order) h
  | timingQuery => cases he; exact serve_sound_of_lanes timingQueryRule_lanes h
  | gpiSetup => cases he; exact serve_sound_of_lanes gpiSetupRule_lanes h
  | paletteSet => cases he; exact serve_sound_of_lanes paletteSetRule_lanes h
  | outputSetup => cases he; exact serve_sound_of_lanes outputSetupRule_lanes h
  | outputResume => cases he; exact serve_sound (fun _ => outputResumeRule_sound) h
  | unknownKind kind tag body =>
    cases he
    split
    · rename_i u _ hu
      have := inHand_sound h hu
      exact this
    · exact h
  | decoderTake => cases he; exact lanes rfl
  | receiveByte elapsed byte =>
    cases he
    refine lanes ?_
    split
    · rfl
    · rw [State.byteArrives_lanes]
      split
      · rw [State.dropFrame_lanes]; rfl
      · rfl
  | byteError elapsed =>
    cases he
    refine lanes ?_
    split
    · rfl
    · rw [State.dropFrame_lanes]; rfl
  | interByteTimeout =>
    cases he
    refine lanes ?_
    split
    · rfl
    · rw [State.dropFrame_lanes]
  | replySent => cases he; exact lanes rfl
  | powerOnReset => cases he; exact powerOn_sound _ _ _ _
  | framePeriodExpiry order => cases he; exact h.periodExpiry order
  | windowExpiry order => cases he; exact h.windowEnd order
  | referencePulse elapsed order => cases he; exact LanesSound.pulseAt (s := s.elapse elapsed) h order
  | armedStart lane => cases he; exact .ite ((LanesTame.startArmed s lane).sound h) h
  | holdDwellExpiry lane =>
    cases he
    split
    · rename_i hs
      exact (LanesTame.endHold s lane hs.1).sound h
    · exact h
  | symbolStale slot => cases he; exact lanes (s.checkSymbol_lanes slot)
  | compositionComplete =>
    cases he
    refine lanes ?_
    split <;> rfl
  | refreshTake => cases he; exact lanes s.takeRefresh_lanes
  | refreshComplete =>
    replace he : execRefreshComplete s = .next t := he
    unfold execRefreshComplete at he
    split at he <;> cases he
    · exact h
    · refine lanes ?_
      rw [State.takeRefresh_lanes]
      exact State.concludeRefresh_lanes s _
  | gpiLevelChange elapsed input => cases he; exact (LanesTame.levelChange (s.elapse elapsed) input).sound h
  | gpiDebounceExpiry input late =>
    cases he
    split
    · exact h
    · exact (LanesTame.countedChange _ late input).sound h

/-- Settles O32: a step idles or runs its front command, and every command keeps the lanes sound. -/
theorem laneMotionStaysSound : Obligations.LaneMotionStaysSound := by
  intro s t h hstep
  unfold step at hstep
  split at hstep
  · cases hstep; exact h
  · refine exec_keeps_lanes_sound ?_ hstep
    exact h

end Sys2Proof.Machine

namespace Sys2Proof.Machine

/-! ### Requests in hand, as commands -/

section
variable {s u : State} {k t : Byte} {b : List Byte} {rule : List Byte → State → State × Reply}

/-- The command of a request in hand that its rule takes. -/
theorem answers_ok (h : s.holds k t b) (hl : lengthFits k b.length = true) (hr : rule b s = accept u) :
    (Host.Outcome.next (serve k t b rule s) : Answer) = .next (u.answered k t 0x00 []) := by
  rw [serve_accept h hl hr]

/-- The command of a request in hand that its rule answers with data. -/
theorem answers_data {d : List Byte} (h : s.holds k t b) (hl : lengthFits k b.length = true)
    (hr : rule b s = (u, okWith d)) :
    (Host.Outcome.next (serve k t b rule s) : Answer) = .next (u.answered k t 0x00 d) := by
  rw [serve_okWith h hl hr]

/-- The command of a request in hand that its rule refuses. -/
theorem answers_refused (r : Result) (h : s.holds k t b) (hl : lengthFits k b.length = true) (hr : rule b s = refuse s r) :
    (Host.Outcome.next (serve k t b rule s) : Answer) = .next (s.answered k t r.code []) := by
  rw [serve_result h hl hr]

end

/-! ### LANE_SPEED and LANE_STAGE (R24, R25) -/

/-- Settles O26: the values of LANE_SPEED are held to their ranges, those of LANE_STAGE are checked. -/
theorem speedsAreHeldAndStaged : Obligations.SpeedsAreHeldAndStaged := by
  intro tag b s i hlen hi
  refine ⟨fun h => ?_, fun h => ?_⟩
  · have hl : lengthFits 0x14 b.length = true := by rw [hlen]; rfl
    refine ⟨fun hs => answers_refused .busy h hl ?_, fun hs => answers_ok h hl ?_⟩
    · rw [laneSpeedRule, withLane_eq hi, if_pos hs]
    · have hc : min (field b 1 2) Config.maxVelocity = if 4095 < field b 1 2 then 4095 else field b 1 2 := by
        simp only [Config.maxVelocity]; split_ifs <;> omega
      have ha : min (max (field b 3 2) 1) Config.maxAccel =
          if field b 3 2 = 0 then 1 else if 1023 < field b 3 2 then 1023 else field b 3 2 := by
        simp only [Config.maxAccel]; split_ifs <;> omega
      rw [laneSpeedRule, withLane_eq hi, if_neg hs, hc, ha, State.updLane_eq]
  · have hl : lengthFits 0x15 b.length = true := by rw [hlen]; rfl
    have hrule : laneStageRule b s =
        if (s.lane i).state = .off then refuse s .busy
        else if field b 3 2 = 0 then accept (s.updLane i fun l => { l with staged := none })
        else if field b 1 2 > 4095 ∨ field b 3 2 > 1023 then refuse s .badParam
        else accept (s.updLane i fun l => { l with staged := some { cruise := field b 1 2, accel := field b 3 2 } }) := by
      rw [laneStageRule, withLane_eq hi]; rfl
    refine ⟨fun hs => answers_refused .busy h hl (by rw [hrule, if_pos hs]), fun hs => ⟨fun h0 => ?_, fun h0 hbad => ?_,
      fun h0 hv ha => ?_⟩⟩
    · exact answers_ok h hl (by rw [hrule, if_neg hs, if_pos h0]; rfl)
    · exact answers_refused .badParam h hl (by rw [hrule, if_neg hs, if_neg h0, if_pos hbad])
    · exact answers_ok h hl (by rw [hrule, if_neg hs, if_neg h0, if_neg (by omega)]; rfl)

/-! ### LANE_SETUP (R16) -/

section
variable {b : List Byte}

theorem small?_isSome_iff {n v : Nat} : (∃ i : Fin n, small? n v = some i) ↔ v < n := by
  unfold small?; split <;> simp [*]

theorem onEmpty?_eq {v : Nat} (h : v ≤ 1) : onEmpty? v = some (if v = 1 then .stop else .runBlank) := by
  interval_cases v <;> rfl

theorem faultPolicy?_eq {v : Nat} (h : v ≤ 1) : faultPolicy? v = some (if v = 1 then .blank else .skip) := by
  interval_cases v <;> rfl

theorem bool?_eq {v : Nat} (h : v ≤ 1) : bool? v = some (decide (v = 1)) := by
  interval_cases v <;> rfl

theorem onEmpty?_some {v : Nat} {x : OnEmpty} (h : onEmpty? v = some x) : v ≤ 1 := by
  unfold onEmpty? at h; split at h <;> simp_all

theorem faultPolicy?_some {v : Nat} {x : FaultPolicy} (h : faultPolicy? v = some x) : v ≤ 1 := by
  unfold faultPolicy? at h; split at h <;> simp_all

theorem bool?_some {v : Nat} {x : Bool} (h : bool? v = some x) : v ≤ 1 := by
  unfold bool? at h; split at h <;> simp_all

theorem small?_some {n v : Nat} {i : Fin n} (h : small? n v = some i) : v = i.val := by
  unfold small? at h; split at h
  · cases h; rfl
  · cases h

/-- The fields of a LANE_SETUP body in their ranges (R1, R16), the height of the face apart. -/
def SetupFits (b : List Byte) : Prop :=
  field b 1 2 ≤ 1079 ∧ 16 ≤ field b 3 1 ∧ field b 3 1 ≤ 128 ∧ field b 1 2 + field b 3 1 ≤ 1080 ∧
    field b 4 2 ≤ 1856 ∧ 64 ≤ field b 6 2 ∧ field b 6 2 ≤ 1920 ∧ field b 4 2 + field b 6 2 ≤ 1920 ∧
    field b 8 1 ≤ 3 ∧ field b 9 1 ≤ 7 ∧ field b 11 2 ≤ field b 6 2 - 64 ∧ field b 13 1 ≤ 15 ∧ field b 14 1 ≤ 1 ∧
    field b 15 1 ≤ 1 ∧ field b 16 1 ≤ 1

/-- The set-up fields of a LANE_SETUP body, with its face, template and background. -/
def setupFields (b : List Byte) (face : Fin 4) (template : Fin 8) (background : Fin 16) : LaneSetup :=
  { bandTop := field b 1 2, bandHeight := field b 3 1, x0 := field b 4 2, width := field b 6 2
    face := face, template := template, gap := field b 10 1, holdPos := field b 11 2
    background := background, smoothing := decide (field b 14 1 = 1)
    onEmpty := if field b 15 1 = 1 then .stop else .runBlank
    fault := if field b 16 1 = 1 then .blank else .skip }

theorem setupOf_eq (h : SetupFits b) {face : Fin 4} {template : Fin 8} {background : Fin 16}
    (hf : field b 8 1 = face.val) (ht : field b 9 1 = template.val) (hg : field b 13 1 = background.val) :
    setupOf b = some (setupFields b face template background) := by
  obtain ⟨h1, h2, h3, h4, h5, h6, h7, h8, -, -, h11, -, h13, h14, h15⟩ := h
  simp only [setupOf, small?_eq hf, small?_eq ht, small?_eq hg, bool?_eq h13, onEmpty?_eq h14, faultPolicy?_eq h15,
    Option.bind_eq_bind, Option.bind_some, setupFields]
  exact if_pos ⟨h1, h2, h3, h4, h5, h6, h7, h8, h11⟩

theorem setupFits_of_setupOf {p : LaneSetup} (h : setupOf b = some p) : SetupFits b := by
  simp only [setupOf, Option.bind_eq_bind, Option.bind_eq_some_iff, Option.ite_none_right_eq_some, Option.some.injEq] at h
  obtain ⟨face, hf, template, ht, background, hg, _, hs, _, he, _, hp, ⟨h1, h2, h3, h4, h5, h6, h7, h8, h11⟩, -⟩ := h
  have h9 := small?_some hf
  have h10 := small?_some ht
  have h12 := small?_some hg
  exact ⟨h1, h2, h3, h4, h5, h6, h7, h8, by omega, by omega, h11, by omega, bool?_some hs, onEmpty?_some he,
    faultPolicy?_some hp⟩

theorem setupOf_none (h : ¬ SetupFits b) : setupOf b = none := by
  cases hp : setupOf b with
  | none => rfl
  | some p => exact absurd (setupFits_of_setupOf hp) h

end

theorem Lane.inUse_iff (l : Lane) : l.inUse = true ↔ l.state ≠ .off ∧ l.state ≠ .idle := by simp [Lane.inUse]

/-- Settles O19: the body decodes exactly when R1 holds (`setupOf_eq`, `setupOf_none`), and the face height is the last check. -/
theorem laneSetupIsCheckedAndTaken : Obligations.LaneSetupIsCheckedAndTaken := by
  intro tag b s i h hlen hi
  have hl : lengthFits 0x10 b.length = true := by rw [hlen]; rfl
  refine ⟨fun hoff hidle => answers_refused .busy h hl ?_, fun hs => ?_⟩
  · rw [laneSetupRule, withLane_eq hi, if_pos ((Lane.inUse_iff _).mpr ⟨hoff, hidle⟩)]
  have hfree : ¬ (s.lane i).inUse = true := by
    rw [Lane.inUse_iff]; rcases hs with e | e <;> simp [e]
  refine ⟨fun hbad => answers_refused .badParam h hl ?_, fun face template background hgood hf ht hg => answers_ok h hl ?_⟩
  · rw [laneSetupRule, withLane_eq hi, if_neg hfree]
    by_cases hfit : SetupFits b
    · obtain ⟨face, hface⟩ := small?_isSome_iff.mpr (show field b 8 1 < 4 by have := hfit; unfold SetupFits at this; omega)
      obtain ⟨template, htemplate⟩ :=
        small?_isSome_iff.mpr (show field b 9 1 < 8 by have := hfit; unfold SetupFits at this; omega)
      obtain ⟨background, hback⟩ :=
        small?_isSome_iff.mpr (show field b 13 1 < 16 by have := hfit; unfold SetupFits at this; omega)
      have hf := small?_some hface
      rw [setupOf_eq hfit hf (small?_some htemplate) (small?_some hback)]
      refine if_pos (Nat.lt_of_not_le fun hle => hbad ?_)
      obtain ⟨h1, h2, h3, h4, h5, h6, h7, h8, h9, h10, h11, h12, h13, h14, h15⟩ := hfit
      refine ⟨h1, h2, h3, h4, h5, h6, h7, h8, h9, h10, h11, h12, h13, h14, h15, fun k hk => ?_⟩
      obtain rfl : face = k := Fin.ext (hf.symm.trans hk)
      exact hle
    · rw [setupOf_none hfit]
  · obtain ⟨h1, h2, h3, h4, h5, h6, h7, h8, h9, h10, h11, h12, h13, h14, h15, hheight⟩ := hgood
    rw [laneSetupRule, withLane_eq hi, if_neg hfree,
      setupOf_eq ⟨h1, h2, h3, h4, h5, h6, h7, h8, h9, h10, h11, h12, h13, h14, h15⟩ hf ht hg]
    exact if_neg (Nat.not_lt.mpr (hheight face hf))

/-! ### LANE_START, immediate form (R18, R19) -/

theorem laneStartRule_now {b : List Byte} {s : State} {i : LaneId} (hi : field b 0 1 = i.val) (h0 : field b 1 1 = 0) :
    laneStartRule b s = startNow s i := by
  simp [laneStartRule, withLane_eq hi, h0]

/-- Settles O22: the starts of IDLE, STOPPED and ARMED are one start of `Lane.begun`, told apart by its return state. -/
theorem laneStartActsByState : Obligations.LaneStartActsByState := by
  intro tag b s i h hlen hi
  have hl : lengthFits 0x12 b.length = true := by rw [hlen]; rfl
  refine ⟨fun hc => answers_refused .badParam h hl ?_, fun h0 => ?_⟩
  · simp [laneStartRule, withLane_eq hi, hc]
  have hrule := laneStartRule_now (s := s) hi h0
  refine ⟨fun hs => answers_refused .busy h hl ?_, fun hs => answers_refused .noEffect h hl ?_, fun hs hb => answers_ok h hl ?_,
    fun returns hr => ?_⟩
  · rcases hs with hs | hs <;> rw [hrule, startNow] <;> simp only [hs]
  · rcases hs with hs | hs | ⟨hs, hb⟩ <;> rw [hrule, startNow]
    · simp only [hs]
    · simp only [hs]
    · simp only [hs, if_neg hb]
  · rw [hrule, startNow]
    simp only [hs, hb, if_true]
  have hstart : laneStartRule b s =
      accept ((s.setLane i ((s.lane i).begun returns)).raise ((s.lane i).startFactor i)) := by
    rw [hrule, startNow]
    rcases hr with ⟨hs, rfl⟩ | ⟨hs, rfl⟩ | ⟨hs, c, m, ha⟩
    · simp only [hs, State.startFrom_eq]
    · simp only [hs, State.startFrom_eq]
    · simp only [hs, State.startArmed_eq hs ha]
  refine ⟨fun hd => answers_ok h hl ?_, fun hd hret => answers_ok h hl ?_, fun hd hret => answers_ok h hl ?_⟩
  · rw [hstart, Lane.begun, Lane.startFactor, if_pos hd, if_pos hd]
  · subst hret
    rw [hstart, Lane.begun, Lane.startFactor, if_neg hd, if_neg hd]; rfl
  · subst hret
    rw [hstart, Lane.begun, Lane.startFactor, if_neg hd, if_neg hd]; rfl

end Sys2Proof.Machine

namespace Sys2Proof.Machine

/-! ### LANE_STOP (R20 to R23) -/

section
variable {late : LaneSet} {tag : Byte} {b : List Byte} {s u : State} {i : LaneId} {mode : StopMode}

theorem laneStop_taken (h : s.holds 0x13 tag b) (hlen : b.length = 2) (hi : field b 0 1 = i.val)
    (hm : stopMode? (field b 1 1) = some mode) (ha : s.applyStop late i mode = some u) :
    exec (.laneStop late tag b) s = .next (u.answered 0x13 tag 0x00 []) := by
  refine answers_ok (rule := laneStopRule late) h (by rw [hlen]; rfl) ?_
  simp only [laneStopRule, withLane_eq hi, hm, ha]

theorem laneStop_noEffect (h : s.holds 0x13 tag b) (hlen : b.length = 2) (hi : field b 0 1 = i.val)
    (hm : stopMode? (field b 1 1) = some mode) (ha : s.applyStop late i mode = none) :
    exec (.laneStop late tag b) s = .next (s.answered 0x13 tag 0x01 []) := by
  refine answers_refused (rule := laneStopRule late) .noEffect h (by rw [hlen]; rfl) ?_
  simp only [laneStopRule, withLane_eq hi, hm, ha]

theorem stopMode?_le {n : Nat} (h : n ≤ 2) : ∃ m, stopMode? n = some m := by
  interval_cases n
  · exact ⟨.now, rfl⟩
  · exact ⟨.ramp, rfl⟩
  · exact ⟨.clear, rfl⟩

theorem stopMode?_none {n : Nat} (h : 2 < n) : stopMode? n = none := by
  obtain ⟨m, rfl⟩ : ∃ m, n = m + 3 := ⟨n - 3, by omega⟩
  rfl

/-- NOW from RUN or BRAKE comes to rest (R14, R21). -/
theorem stopNow_of_moving (hs : (s.lane i).state = .run ∨ (s.lane i).state = .brake) :
    s.stopNow late i = (((s.setLane i { s.lane i with
      state := .stopped, velocity := 0, brake := none, dwell := 0, clearing := false }).raise (.stopped i)).comesToRest
        late i) := by
  have hm : (s.lane i).isMoving = true := by rcases hs with e | e <;> simp [Lane.isMoving, e]
  rw [State.stopNow]
  exact if_pos hm

/-- NOW from HELD, which is at rest already (R21). -/
theorem stopNow_of_held (hs : (s.lane i).state = .held) :
    s.stopNow late i = (s.setLane i { s.lane i with
      state := .stopped, velocity := 0, brake := none, dwell := 0, clearing := false }).raise (.stopped i) := by
  have hm : ¬ (s.lane i).isMoving = true := by simp [Lane.isMoving, hs]
  rw [State.stopNow]
  exact if_neg hm

end

/-- Settles O25: the table of R20, entry by entry. -/
theorem laneStopFollowsItsTable : Obligations.LaneStopFollowsItsTable := by
  intro late tag b s i h hlen hi
  have now (hm : field b 1 1 = 0) : stopMode? (field b 1 1) = some .now := by rw [hm]; rfl
  have ramp (hm : field b 1 1 = 1) : stopMode? (field b 1 1) = some .ramp := by rw [hm]; rfl
  have clear (hm : field b 1 1 = 2) : stopMode? (field b 1 1) = some .clear := by rw [hm]; rfl
  refine ⟨fun hm => ?_, fun hs hm => ?_, fun hs hm => ?_, fun c returns m hs ha hm => ?_, fun hs hm => ?_, fun hs hm => ?_,
    fun hs hb hm => ?_, fun hs hm => ?_, fun hs hb hm => ?_, fun hs hc hm => ?_, fun hs hc hm => ?_⟩
  · refine answers_refused (rule := laneStopRule late) .badParam h (by rw [hlen]; rfl) ?_
    simp only [laneStopRule, withLane_eq hi, stopMode?_none hm]
  · obtain ⟨mode, hmode⟩ := stopMode?_le hm
    exact laneStop_noEffect h hlen hi hmode (applyStop_of_still hs)
  · rcases hm with hm | hm
    · exact laneStop_noEffect h hlen hi (ramp hm) (applyStop_armed_other hs (by simp))
    · exact laneStop_noEffect h hlen hi (clear hm) (applyStop_armed_other hs (by simp))
  · refine laneStop_taken h hlen hi (now hm) ((applyStop_armed_now hs).trans ?_)
    rw [State.updLane_eq, Lane.cancelArm, ha]
    cases returns <;> rfl
  · exact laneStop_taken h hlen hi (now hm) ((applyStop_now (by tauto)).trans (congrArg some (stopNow_of_moving hs)))
  · exact laneStop_taken h hlen hi (now hm) ((applyStop_now (by tauto)).trans (congrArg some (stopNow_of_held hs)))
  · exact laneStop_taken h hlen hi (ramp hm) ((applyStop_moving_ramp hs).trans (if_neg hb))
  · exact laneStop_taken h hlen hi (ramp hm) (applyStop_held_ramp hs)
  · rcases hm with hm | hm
    · exact laneStop_noEffect h hlen hi (ramp hm) ((applyStop_moving_ramp hs).trans (if_pos hb))
    · exact laneStop_noEffect h hlen hi (clear hm) ((applyStop_moving_clear hs).trans (if_pos (.inl hb)))
  · have hnone : s.applyStop late i .clear = none := by
      rcases or_assoc.mpr hs with hs | hs
      · exact (applyStop_moving_clear hs).trans (if_pos (.inr hc))
      · exact (applyStop_held_clear hs).trans (if_pos hc)
    exact laneStop_noEffect h hlen hi (clear hm) hnone
  · have hsome : s.applyStop late i .clear = some (s.setLane i { s.lane i with clearing := true }) := by
      rcases hs with hs | ⟨hs, hb⟩
      · exact (applyStop_held_clear hs).trans (if_neg (by simp [hc]))
      · exact (applyStop_moving_clear hs).trans (if_neg (by simp [hc, hb]))
    exact laneStop_taken h hlen hi (clear hm) hsome

/-! ### LANE_OFF and LANE_RESET (R17, R26, R31) -/

section
variable {s : State} {i : LaneId}

@[simp] theorem State.dropReference_pool (s : State) (c : Content) : (s.dropReference c).pool = s.pool := by cases c <;> rfl
@[simp] theorem State.joinView_pool (s : State) (k : Nat) (c : Content) : (s.joinView k c).pool = s.pool := by
  cases c <;> rfl
@[simp] theorem State.leaveView_pool (s : State) (k : Nat) (c : Content) : (s.leaveView k c).pool = s.pool := by
  cases c <;> rfl

/-- Freeing an item takes it out of the pool's items, and out of its lane's run list; no other item and no other lane
changes (R31). -/
theorem State.freeItem_eq {k : Nat} {it : Item} (h : s.item? k = some it) :
    (s.freeItem k).lanes = (s.updLane it.lane (Lane.dropItem k)).lanes ∧
      (s.freeItem k).pool.items = tableErase s.pool.items k := by
  unfold State.freeItem
  simp only [h]
  refine ⟨?_, ?_⟩
  · simp only [State.dropReference_lanes, State.updLane_lanes]
    split_ifs <;> simp [State.lane]
  · simp only [Pool.bump, State.dropReference_pool, State.updLane_pool]
    split_ifs <;> simp

theorem State.freeItem_none {k : Nat} (h : s.item? k = none) : s.freeItem k = s := by
  unfold State.freeItem; simp only [h]

theorem State.freeItem_rising (h : tableRising s.pool.items = true) (k : Nat) :
    tableRising (s.freeItem k).pool.items = true := by
  cases hk : s.item? k with
  | none => rwa [State.freeItem_none hk]
  | some it => rw [(State.freeItem_eq hk).2]; exact tableRising_erase h

theorem State.freeItem_item (h : tableRising s.pool.items = true) (k j : Nat) :
    (s.freeItem k).item? j = if j = k then none else s.item? j := by
  cases hk : s.item? k with
  | none => rw [State.freeItem_none hk]; split_ifs with e <;> simp [*]
  | some it => simp only [State.item?, (State.freeItem_eq hk).2, tableFind_erase h]

/-- Items of one lane freed one after another leave its run list. -/
theorem State.freeItems_own_lane {ks : List Nat} (hr : tableRising s.pool.items = true) (hk : ks.Nodup)
    (ho : ∀ k ∈ ks, ∃ it, s.item? k = some it ∧ it.lane = i) :
    (s.freeItems ks).lane i =
      { s.lane i with visible := (s.lane i).visible.diff ks, queued := (s.lane i).queued.diff ks } := by
  induction ks generalizing s with
  | nil => rfl
  | cons k ks ih =>
    obtain ⟨hnot, hnodup⟩ := List.nodup_cons.mp hk
    obtain ⟨it, hit, rfl⟩ := ho k (by simp)
    have hown : ∀ j ∈ ks, ∃ it', (s.freeItem k).item? j = some it' ∧ it'.lane = it.lane := fun j hj => by
      have hne : j ≠ k := fun e => hnot (e ▸ hj)
      rw [State.freeItem_item hr, if_neg hne]
      exact ho j (by simp [hj])
    have hlane : (s.freeItem k).lane it.lane = (s.lane it.lane).dropItem k := by
      rw [State.lane_congr (State.freeItem_eq hit).1, State.lane_updLane_same]
    exact (ih (State.freeItem_rising hr k) hnodup hown).trans (by simp only [hlane, List.diff_cons]; rfl)

/-- All items of a lane freed: its run list is empty (R26, R31). -/
theorem State.freeItems_all (h : s.ListsAgree) :
    (s.freeItems ((s.lane i).visible ++ (s.lane i).queued)).lane i = { s.lane i with visible := [], queued := [] } := by
  have hown : ∀ k ∈ (s.lane i).visible ++ (s.lane i).queued, ∃ it, s.item? k = some it ∧ it.lane = i := by
    intro k hk
    rcases List.mem_append.mp hk with hk | hk
    · obtain ⟨it, h1, h2, -⟩ := h.visible i k hk; exact ⟨it, h1, h2⟩
    · obtain ⟨it, h1, h2, -⟩ := h.queued i k hk; exact ⟨it, h1, h2⟩
  have hnodup := h.once i
  obtain ⟨hv, hq, -⟩ := List.nodup_append.mp hnodup
  have gone {l : List Nat} (hl : l.Nodup) (hsub : l ⊆ (s.lane i).visible ++ (s.lane i).queued) :
      l.diff ((s.lane i).visible ++ (s.lane i).queued) = [] :=
    List.eq_nil_iff_forall_not_mem.mpr fun x hx => by
      obtain ⟨h1, h2⟩ := hl.mem_sdiff_iff.mp hx
      exact h2 (hsub h1)
  rw [State.freeItems_own_lane h.rising hnodup hown, gone hv (List.subset_append_left _ _),
    gone hq (List.subset_append_right _ _)]

end

/-- Settles O20: what LANE_OFF and LANE_RESET free is `freeItems`; after a reset the run list is empty by
`freeItems_all`. -/
theorem laneOffAndResetClearTheLane : Obligations.LaneOffAndResetClearTheLane := by
  intro tag b s i hlen hi
  refine ⟨fun h => ?_, fun h => ?_⟩
  · have hl : lengthFits 0x11 b.length = true := by rw [hlen]; rfl
    refine ⟨fun hs => answers_refused .busy h hl ?_, fun hs => ⟨_, rfl, answers_ok h hl ?_⟩⟩
    · rw [laneOffRule, withLane_eq hi, if_neg hs]
    · rw [laneOffRule, withLane_eq hi, if_pos hs]; rfl
  · have hl : lengthFits 0x16 b.length = true := by rw [hlen]; rfl
    refine ⟨fun hs => answers_refused .busy h hl ?_, fun hs hlists => ⟨_, rfl, answers_ok h hl ?_⟩⟩
    · rw [laneResetRule, withLane_eq hi, if_pos hs]
    · rw [laneResetRule, withLane_eq hi, if_neg hs]
      simp only [State.updLane_eq, State.freeItems_all hlists]
      rfl

/-! ### Wrong lanes and handles (R15, R30) -/

theorem withCue_none {b : List Byte} (h : 6 ≤ field b 0 1) (s : State) (rule : LaneId → CueId → State × Reply) :
    withCue b s rule = refuse s .badParam := by
  simp [withCue, small?_none h]

/-- A handle whose slot is free, or of another generation than the slot's, names no item (R30). -/
theorem State.resolve_none {s : State} {n : Nat}
    (h : s.item? (n % 2048) = none ∨ s.pool.generation (n % 2048) ≠ n / 2048) : s.resolve n = none := by
  unfold State.resolve
  simp only [Config.itemSlots]
  split
  · rename_i it hit
    rcases h with h | h
    · rw [h] at hit; cases hit
    · exact if_neg h
  · rfl

/-- A handle that names the item in a slot (R29, R30). -/
theorem State.resolve_some {s : State} {n slot : Nat} {it : Item} (hs : slot < 2048) (hit : s.item? slot = some it)
    (hn : n = s.pool.generation slot * 2048 + slot) : s.resolve n = some (slot, it) := by
  have hmod : n % 2048 = slot := by omega
  have hdiv : n / 2048 = s.pool.generation slot := by omega
  unfold State.resolve
  simp only [Config.itemSlots, hmod, hdiv, hit]
  exact if_pos trivial

theorem withItem_none {b : List Byte} {s : State}
    (h : s.item? (field b 0 2 % 2048) = none ∨ s.pool.generation (field b 0 2 % 2048) ≠ field b 0 2 / 2048)
    (rule : Nat → Item → State × Reply) : withItem b s rule = refuse s .noItem := by
  simp [withItem, State.resolve_none h]

/-- Settles O18: every request that names a lane first goes through `withLane` or `withCue`, every one that names an item
first through `withItem`. -/
theorem wrongLanesAndHandlesAreRefused : Obligations.WrongLanesAndHandlesAreRefused := by
  intro c k t b s hc hu h hl
  have lane {rule : List Byte → State → State × Reply} (hr : 6 ≤ field b 0 1 → rule b s = refuse s .badParam)
      (he : exec c s = .next (serve k t b rule s)) (hi : 6 ≤ field b 0 1) : exec c s = .next (s.answered k t 0x12 []) :=
    he.trans (answers_refused .badParam h hl (hr hi))
  have item {rule : List Byte → State → State × Reply}
      (hr : (s.item? (field b 0 2 % 2048) = none ∨ s.pool.generation (field b 0 2 % 2048) ≠ field b 0 2 / 2048) →
        rule b s = refuse s .noItem) (he : exec c s = .next (serve k t b rule s))
      (hi : s.item? (field b 0 2 % 2048) = none ∨ s.pool.generation (field b 0 2 % 2048) ≠ field b 0 2 / 2048) :
      exec c s = .next (s.answered k t 0x14 []) :=
    he.trans (answers_refused .noItem h hl (hr hi))
  cases c <;> cases hc
  case unknownKind => exact absurd rfl hu
  case laneSetup => exact ⟨fun _ => lane (withLane_none · s _) rfl, fun hk => absurd hk (by decide)⟩
  case laneOff => exact ⟨fun _ => lane (withLane_none · s _) rfl, fun hk => absurd hk (by decide)⟩
  case laneStart => exact ⟨fun _ => lane (withLane_none · s _) rfl, fun hk => absurd hk (by decide)⟩
  case laneStop => exact ⟨fun _ => lane (withLane_none · s _) rfl, fun hk => absurd hk (by decide)⟩
  case laneSpeed => exact ⟨fun _ => lane (withLane_none · s _) rfl, fun hk => absurd hk (by decide)⟩
  case laneStage => exact ⟨fun _ => lane (withLane_none · s _) rfl, fun hk => absurd hk (by decide)⟩
  case laneReset => exact ⟨fun _ => lane (withLane_none · s _) rfl, fun hk => absurd hk (by decide)⟩
  case laneQuery => exact ⟨fun _ => lane (withLane_none · s _) rfl, fun hk => absurd hk (by decide)⟩
  case itemAppend => exact ⟨fun _ => lane (withLane_none · s _) rfl, fun hk => absurd hk (by decide)⟩
  case runClear => exact ⟨fun _ => lane (withLane_none · s _) rfl, fun hk => absurd hk (by decide)⟩
  case runList => exact ⟨fun _ => lane (withLane_none · s _) rfl, fun hk => absurd hk (by decide)⟩
  case holdRelease => exact ⟨fun _ => lane (withLane_none · s _) rfl, fun hk => absurd hk (by decide)⟩
  case cueSet => exact ⟨fun _ => lane (withCue_none · s _) rfl, fun hk => absurd hk (by decide)⟩
  case cueClear => exact ⟨fun _ => lane (withCue_none · s _) rfl, fun hk => absurd hk (by decide)⟩
  case cueQuery => exact ⟨fun _ => lane (withCue_none · s _) rfl, fun hk => absurd hk (by decide)⟩
  case itemReplace => exact ⟨fun hk => absurd hk (by decide), fun _ => item (withItem_none · _) rfl⟩
  case itemRemove => exact ⟨fun hk => absurd hk (by decide), fun _ => item (withItem_none · _) rfl⟩
  case itemPasses => exact ⟨fun hk => absurd hk (by decide), fun _ => item (withItem_none · _) rfl⟩
  case itemQuery => exact ⟨fun hk => absurd hk (by decide), fun _ => item (withItem_none · _) rfl⟩
  all_goals exact ⟨fun hk => absurd hk (by decide), fun hk => absurd hk (by decide)⟩

/-! ### The queries (R27, R50, R51, R67) -/

theorem boolByte_eq (x : Bool) : boolByte x = [if x then 1 else 0] := by cases x <;> rfl

/-- Settles O40: each query goes to its report, whose fields are those of the rule. -/
theorem laneAndItemQueriesReport : Obligations.LaneAndItemQueriesReport := by
  intro tag b s i
  refine ⟨fun h hlen hi => ?_, fun h hlen hi => ?_, fun h hlen hk => ?_, fun k h hlen hi hk => ?_,
    fun slot it h hlen hslot hit hn hlane => ?_⟩
  · refine ⟨BitVec.ofNat 8 (s.lane i).state.code, BitVec.ofNat 8 (brakeCode (s.lane i).brake),
      answers_data h (by rw [hlen]; rfl) ?_, ?_, ?_⟩
    · rw [laneQueryRule, withLane_eq hi, laneReport, boolByte_eq, boolByte_eq]
      cases (s.lane i).targets <;> simp [be]
    · cases (s.lane i).state <;> rfl
    · cases (s.lane i).brake with
      | none => rfl
      | some k => cases k <;> rfl
  · refine answers_data h (by rw [hlen]; rfl) ?_
    rw [runListRule, withLane_eq hi]
    rfl
  · refine answers_refused .badParam h (by rw [hlen]; rfl) ?_
    rw [cueQueryRule, withCue, small?_none (n := 4) (by omega)]
    split <;> simp_all
  · refine answers_data h (by rw [hlen]; rfl) ?_
    simp only [cueQueryRule, withCue, small?_eq hi, small?_eq hk, cueReport, boolByte_eq]
  · refine ⟨contentReport it.content, cellReport (s.lane i) it.cell, answers_data h (by rw [hlen]; rfl) ?_,
      fun code link hc => ?_, fun id hc => ?_, fun code hc => ?_, fun hc => ?_, fun c hc => ?_⟩
    · rw [itemQueryRule, withItem, State.resolve_some hslot hit hn]
      simp only [itemReport, hlane, boolByte_eq, hn]
      rfl
    · rw [hc]; rfl
    · rw [hc]; rfl
    · rw [hc]; rfl
    · rw [hc]; rfl
    · rw [hc, cellReport, boolByte_eq]

end Sys2Proof.Machine

namespace Sys2Proof.Machine

/-! ### Factors of a lane's group (R155, R156) -/

section
variable {s t : State} {i : LaneId}

theorem errorPlaces_laneGroup (i : LaneId) : errorPlaces (laneGroup i) = 0xE000#16 := by revert i; decide

theorem eventPlaces_laneGroup (i : LaneId) : eventPlaces (laneGroup i) = 0x1FFF#16 := by revert i; decide

theorem Factor.bit_getLsbD (f : Factor) {n : Nat} (h : n < 16) : f.bit.getLsbD n = decide (n = f.place) := by
  simp only [Factor.bit, BitVec.getLsbD_shiftLeft, BitVec.getLsbD_one]
  by_cases e : n = f.place
  · subst e; simp [h]
  · by_cases hlt : n < f.place
    · simp [e, hlt]
    · have : n - f.place ≠ 0 := by omega
      simp [e, this]

/-- A lane's group records its error factors, at places 13 to 15, and its enabled event factors (R156). -/
theorem Group.records_laneGroup (g : Group) (i : LaneId) {n : Nat} (h : n < 16) :
    (g.records (laneGroup i)).getLsbD n = true ↔ 13 ≤ n ∨ g.enable.getLsbD n = true := by
  have herr : ∀ n < 16, (0xE000#16).getLsbD n = decide (13 ≤ n) := by decide
  have hev : ∀ n < 16, (0x1FFF#16).getLsbD n = decide (n < 13) := by decide
  simp only [Group.records, errorPlaces_laneGroup, eventPlaces_laneGroup, BitVec.getLsbD_or, BitVec.getLsbD_and,
    herr n h, hev n h, Bool.or_eq_true, Bool.and_eq_true, decide_eq_true_eq]
  by_cases h13 : 13 ≤ n
  · simp [h13]
  · simp [h13, Nat.lt_of_not_le h13]

/-- A raised factor of a lane's group is pending when it is an error factor or enabled, and changes no other place. -/
theorem State.raise_pending_getLsbD (s : State) {f : Factor} (hf : f.group = laneGroup i) {n : Nat} (h : n < 16) :
    (s.raise f).events.groups[laneGroup i].pending.getLsbD n = true ↔
      s.events.groups[laneGroup i].pending.getLsbD n = true ∨
        n = f.place ∧ (13 ≤ n ∨ s.events.groups[laneGroup i].enable.getLsbD n = true) := by
  rw [State.raise_events, EventUnit.record_groups, if_pos hf.symm]
  simp only [BitVec.getLsbD_or, BitVec.getLsbD_and, Factor.bit_getLsbD f h, Bool.or_eq_true, Bool.and_eq_true,
    decide_eq_true_eq, Group.records_laneGroup _ i h]

theorem State.raise_enable (s : State) (f : Factor) (g : GroupId) :
    (s.raise f).events.groups[g].enable = s.events.groups[g].enable := EventUnit.record_enable _ _ _

theorem State.raise_level (s : State) (f : Factor) (g : GroupId) :
    (s.raise f).events.groups[g].level = s.events.groups[g].level := EventUnit.record_level _ _ _

/-- Factors raised one after another in a lane's group. -/
theorem raises_pending {α : Type} {f : α → Factor} (hf : ∀ a, (f a).group = laneGroup i) (as : List α) (s : State)
    {n : Nat} (h : n < 16) :
    (as.foldl (fun s a => s.raise (f a)) s).events.groups[laneGroup i].pending.getLsbD n = true ↔
      s.events.groups[laneGroup i].pending.getLsbD n = true ∨
        (∃ a ∈ as, n = (f a).place) ∧ (13 ≤ n ∨ s.events.groups[laneGroup i].enable.getLsbD n = true) := by
  induction as generalizing s with
  | nil => simp
  | cons a as ih =>
    rw [List.foldl_cons, ih, State.raise_pending_getLsbD _ (hf a) h, State.raise_enable]
    simp only [List.mem_cons, exists_eq_or_imp]
    tauto

/-- Work on lane i alone that raises no factor but those of its group, and keeps enables and levels. -/
structure LaneFactors (i : LaneId) (s t : State) : Prop extends LaneAlone i s t where
  enable : t.events.groups[laneGroup i].enable = s.events.groups[laneGroup i].enable
  level : t.events.groups[laneGroup i].level = s.events.groups[laneGroup i].level

theorem LaneFactors.setLane (s : State) (i : LaneId) (l : Lane) : LaneFactors i s (s.setLane i l) :=
  ⟨.setLane i s l, rfl, rfl⟩

theorem LaneFactors.raise (h : LaneFactors i s t) {f : Factor} (hf : f.group = laneGroup i) :
    LaneFactors i s (t.raise f) :=
  ⟨h.toLaneAlone.trans (.raise t hf), (t.raise_enable f _).trans h.enable, (t.raise_level f _).trans h.level⟩

theorem LaneFactors.raises (h : LaneFactors i s t) {α : Type} {f : α → Factor} (hf : ∀ a, (f a).group = laneGroup i)
    (as : List α) : LaneFactors i s (as.foldl (fun s a => s.raise (f a)) t) := by
  induction as generalizing t with
  | nil => exact h
  | cons a as ih => exact ih (h.raise (hf a))

theorem LaneFactors.ite {u : State} {p : Prop} [Decidable p] (h : LaneFactors i s t) (h' : LaneFactors i s u) :
    LaneFactors i s (if p then t else u) := by
  split <;> assumption

/-- The group of the lane keeps all but its pending set. -/
theorem LaneFactors.group (h : LaneFactors i s t) :
    t.events.groups[laneGroup i] =
      { s.events.groups[laneGroup i] with pending := t.events.groups[laneGroup i].pending } := by
  have eta (a b : Group) (he : a.enable = b.enable) (hl : a.level = b.level) : a = { b with pending := a.pending } := by
    cases a; cases b; cases he; cases hl; rfl
  exact eta _ _ h.enable h.level

end

/-! ### The landing of a lane (R11, R12) -/

section
variable {l : Lane}

theorem Lane.mem_landed {t : Target} : t ∈ l.landed ↔ t ∈ l.targets ∧ t.travel = l.travel := by
  simp [Lane.landed]

/-- The cues that stop a lane where it stands. -/
theorem Lane.mem_stopCues_landed {k : CueId} :
    k ∈ stopCues l.landed ↔ { travel := l.travel, kind := .stop k } ∈ l.targets := by
  simp only [stopCues, List.mem_filterMap, Lane.mem_landed]
  constructor
  · rintro ⟨⟨tr, kind⟩, ⟨hmem, htr⟩, hk⟩
    cases kind with
    | hold d => cases hk
    | stop k' => cases hk; cases htr; exact hmem
  · exact fun h => ⟨_, ⟨h, rfl⟩, rfl⟩

/-- The dwells that hold a lane where it stands. -/
theorem Lane.mem_holdDwells_landed {d : Nat} :
    d ∈ holdDwells l.landed ↔ { travel := l.travel, kind := .hold d } ∈ l.targets := by
  simp only [holdDwells, List.mem_filterMap, Lane.mem_landed]
  constructor
  · rintro ⟨⟨tr, kind⟩, ⟨hmem, htr⟩, hk⟩
    cases kind with
    | hold d' => cases hk; cases htr; exact hmem
    | stop k => cases hk
  · exact fun h => ⟨_, ⟨h, rfl⟩, rfl⟩

/-- A landing that stops its lane, and does not hold it (R11). -/
def Lane.stopsAt (l : Lane) (ramp : Bool) : Bool := ramp || !(stopCues l.landed).isEmpty

theorem Lane.stopsAt_iff (l : Lane) (ramp : Bool) :
    l.stopsAt ramp = true ↔ ramp = true ∨ ∃ k, { travel := l.travel, kind := .stop k } ∈ l.targets := by
  simp only [Lane.stopsAt, Bool.or_eq_true, Bool.not_eq_true', List.isEmpty_eq_false_iff_exists_mem,
    Lane.mem_stopCues_landed]

/-- The landing, field by field. -/
theorem Lane.land_eq (l : Lane) (ramp : Bool) :
    l.land ramp = { l with
      targets := l.targets.filter fun t => decide (t.travel ≠ l.travel)
      velocity := 0, brake := none
      state := if l.stopsAt ramp then .stopped else .held
      dwell := if l.stopsAt ramp then 0 else (holdDwells l.landed).foldl max 0
      cues := ((stopCues l.landed).foldl Lane.disarmCue l).cues } := by
  obtain ⟨cs, h⟩ := disarmCues_keeps (stopCues l.landed) l
  unfold Lane.land
  simp only [h]
  rfl

/-- A cue after others of its lane, or itself, were disarmed. -/
theorem cues_disarmed (ks : List CueId) (k : CueId) (l : Lane) :
    (ks.foldl Lane.disarmCue l).cues[k] = if k ∈ ks then { l.cues[k] with armed := false } else l.cues[k] := by
  induction ks generalizing l with
  | nil => simp
  | cons a ks ih =>
    have hcue : (l.disarmCue a).cues[k] = if k = a then { l.cues[k] with armed := false } else l.cues[k] := by
      by_cases e : k = a
      · subst e; simp [Lane.disarmCue, Lane.setCue, Cue.disarm]
      · have : a.val ≠ k.val := fun h => e (Fin.ext h.symm)
        simp [Lane.disarmCue, Lane.setCue, e, Vector.getElem_set_ne, this]
    rw [List.foldl_cons, ih, hcue]
    by_cases e : k = a <;> by_cases hk : k ∈ ks <;> simp [e, hk]

theorem Lane.land_cue (l : Lane) (ramp : Bool) (k : CueId) :
    (l.land ramp).cues[k] = if { travel := l.travel, kind := .stop k } ∈ l.targets
      then { l.cues[k] with armed := false } else l.cues[k] := by
  rw [Lane.land_eq]
  simp only [cues_disarmed, Lane.mem_stopCues_landed]

theorem Lane.land_syncMask (l : Lane) (ramp : Bool) (k : CueId) :
    (l.land ramp).cues[k].syncMask = l.cues[k].syncMask := by
  rw [Lane.land_cue]; split <;> rfl

theorem le_foldl_max {ds : List Nat} {d x : Nat} (h : d ∈ ds) : d ≤ ds.foldl max x := by
  induction ds generalizing x with
  | nil => cases h
  | cons a ds ih =>
    have mono : ∀ (ds : List Nat) (y : Nat), y ≤ ds.foldl max y := by
      intro ds
      induction ds with
      | nil => exact fun _ => le_rfl
      | cons b ds ih => exact fun y => (Nat.le_max_left y b).trans (ih _)
    rcases List.mem_cons.mp h with rfl | h
    · exact (Nat.le_max_right x d).trans (mono ds _)
    · exact ih h

theorem foldl_max_mem (ds : List Nat) (x : Nat) : ds.foldl max x = x ∨ ds.foldl max x ∈ ds := by
  induction ds generalizing x with
  | nil => exact .inl rfl
  | cons a ds ih =>
    rcases ih (max x a) with h | h
    · rw [List.foldl_cons, h]
      rcases Nat.le_total x a with hx | hx
      · rw [Nat.max_eq_right hx]; exact .inr (by simp)
      · rw [Nat.max_eq_left hx]; exact .inl rfl
    · exact .inr (List.mem_cons_of_mem _ h)

/-- The largest of some hold dwells is one of them. -/
theorem foldl_max_mem_of_mem {ds : List Nat} {d : Nat} (h : d ∈ ds) : ds.foldl max 0 ∈ ds := by
  rcases foldl_max_mem ds 0 with h0 | hm
  · have := le_foldl_max (x := 0) h
    have : d = ds.foldl max 0 := by omega
    exact this ▸ h
  · exact hm

end

/-- What O29 says of a landing (R11, R12). -/
theorem land_follows_rules (l : Lane) (ramp : Bool) :
    let r := l.land ramp
    (∀ t, t ∈ r.targets ↔ t ∈ l.targets ∧ t.travel ≠ l.travel) ∧ r.velocity = 0 ∧ r.brake = none ∧ r.travel = l.travel ∧
    ((ramp = true ∨ ∃ k, { travel := l.travel, kind := .stop k } ∈ l.targets) → r.state = .stopped ∧ r.dwell = 0) ∧
    (ramp = false → (∀ k, { travel := l.travel, kind := .stop k } ∉ l.targets) →
      (∃ d, { travel := l.travel, kind := .hold d } ∈ l.targets) →
        r.state = .held ∧ { travel := l.travel, kind := .hold r.dwell } ∈ l.targets ∧
          ∀ d, { travel := l.travel, kind := .hold d } ∈ l.targets → d ≤ r.dwell) ∧
    ∀ k : CueId, r.cues[k] = if { travel := l.travel, kind := .stop k } ∈ l.targets
      then { l.cues[k] with armed := false } else l.cues[k] := by
  refine ⟨fun t => ?_, ?_, ?_, ?_, fun hs => ?_, fun hr hno ⟨d, hd⟩ => ?_, l.land_cue ramp⟩
  · rw [Lane.land_eq]; simp
  · rw [Lane.land_eq]
  · rw [Lane.land_eq]
  · rw [Lane.land_eq]
  · have := (l.stopsAt_iff ramp).mpr hs
    rw [Lane.land_eq]; simp [this]
  · have hns : ¬ l.stopsAt ramp = true := by
      rw [Lane.stopsAt_iff, not_or, not_exists]; exact ⟨by simp [hr], hno⟩
    rw [Lane.land_eq]
    simp only [if_neg hns, ← Lane.mem_holdDwells_landed] at hd ⊢
    exact ⟨trivial, foldl_max_mem_of_mem hd, fun d hd => le_foldl_max hd⟩

/-! ### The step, rule by rule (R6, R8 to R10) -/

theorem rampedVelocity_eq (v c a : Nat) :
    rampedVelocity v c a = if v < c then min (v + a) c else max (v - a) c := by
  unfold rampedVelocity; split_ifs <;> omega

theorem rampStep_ramp (l : Lane) : (rampStep l).ramp = true := by
  unfold rampStep
  simp only
  split
  · rfl
  · split <;> rfl

theorem targetStep_ramp (l : Lane) (n : Nat) : (targetStep l n).ramp = false := by
  unfold targetStep; simp only; split <;> rfl

/-- The step is a ramp step exactly while the brake kind is RAMP (R10). -/
theorem stepLane_ramp_iff {l : Lane} (h : l.Sound) : (stepLane l).ramp = true ↔ l.brake = some .ramp := by
  by_cases hb : l.brake = some .ramp
  · rw [stepLane_of_ramp (h.brake.mp (by simp [hb])) hb]
    exact iff_of_true (rampStep_ramp l) hb
  · refine iff_of_false ?_ hb
    unfold stepLane
    rw [if_neg (fun h => hb h.2)]
    split
    · simp [freeStep]
    · split
      · simp [brakingStep]
      · simp [targetStep_ramp]

/-- What O29 says of the step of a sound moving lane. -/
theorem step_follows_rules (l : Lane) (h : l.Sound) (hm : l.state = .run ∨ l.state = .brake) :
    let r := stepLane l
    let ramps := l.brake = some .ramp
    let v := if l.velocity < l.cruise then min (l.velocity + l.accel) l.cruise else max (l.velocity - l.accel) l.cruise
    let b := if l.accel < l.velocity then l.velocity - l.accel else if l.velocity = 0 then l.accel else l.velocity
    (l.travel ≤ r.lane.travel ∧ r.lane.travel ≤ 2 ^ 48 - 1 ∧ r.lane.travel - l.travel ≤ 4095 ∧ r.lane.targets = l.targets ∧
      ∀ near rest, l.targets = near :: rest →
        r.lane.travel ≤ near.travel ∧ (r.reached = true ↔ r.lane.travel = near.travel)) ∧
    (r.ramp = true ↔ ramps) ∧ (l.targets = [] → r.reached = false) ∧
    (¬ ramps → l.targets = [] → r.lane = { l with
      state := .run, brake := none, velocity := v, travel := min (l.travel + v) (2 ^ 48 - 1) } ∧ r.braking = 0) ∧
    (∀ near rest, ¬ ramps → l.targets = near :: rest →
      let fits := l.state = .run ∧ v + brakingDistance v l.accel ≤ near.travel - l.travel
      (fits → r.lane = { l with velocity := v, travel := l.travel + v } ∧ r.braking = 0) ∧
      (¬ fits → r.braking = b ∧ r.lane = { l with
        state := .brake, brake := some .target, velocity := b
        travel := l.travel + min b (near.travel - l.travel) })) ∧
    (ramps → l.velocity ≤ l.accel → r.reached = false ∧
      r.lane = { l with state := .stopped, brake := none, velocity := 0 }) ∧
    (ramps → l.accel < l.velocity → r.braking = l.velocity - l.accel ∧ r.lane = { l with
      velocity := l.velocity - l.accel
      travel := match l.targets with
        | [] => min (l.travel + (l.velocity - l.accel)) (2 ^ 48 - 1)
        | near :: _ => l.travel + min (l.velocity - l.accel) (near.travel - l.travel) }) := by
  intro r ramps v b
  have hr : StepSound l r := stepLane_sound h hm
  have hv : v = rampedVelocity l.velocity l.cruise l.accel := (rampedVelocity_eq _ _ _).symm
  have hramp (hb : ramps) : r = rampStep l := stepLane_of_ramp (h.brake.mp (by simp [show l.brake = some .ramp from hb])) hb
  refine ⟨⟨hr.forward, hr.bound, ?_, ?_, hr.near⟩, stepLane_ramp_iff h, hr.free, fun hb ht => ?_, fun near rest hb ht => ?_,
    fun hb hle => ?_, fun hb hlt => ?_⟩
  · have := hr.short; omega
  · obtain ⟨st, tr, v, b, e⟩ := hr.keeps
    rw [e]
  · rw [show r = freeStep l from stepLane_of_no_target hb ht, hv]
    exact ⟨rfl, rfl⟩
  · obtain ⟨hahead, hmax⟩ := h.ahead near (by simp [ht])
    refine ⟨fun ⟨hs, hfit⟩ => ?_, fun hnot => ?_⟩
    · rw [show r = targetStep l near.travel from stepLane_of_run hs ht, hv,
        targetStep_of_room hmax hahead.le (hv ▸ hfit)]
      exact ⟨rfl, rfl⟩
    · have hbrake : r = brakingStep l near.travel := by
        rcases hm with hs | hs
        · have hno : near.travel - l.travel < v + brakingDistance v l.accel :=
            Nat.lt_of_not_le fun hle => hnot ⟨hs, hle⟩
          rw [hv] at hno
          exact (stepLane_of_run hs ht).trans (targetStep_of_no_room hno)
        · exact stepLane_of_brake hs hb ht
      rw [hbrake, brakingStep_of_ahead hahead.le hmax]
      exact ⟨rfl, rfl⟩
  · rw [hramp hb, rampStep_of_end hle]
    exact ⟨rfl, rfl⟩
  · rw [hramp hb]
    cases ht : l.targets with
    | nil =>
      rw [rampStep_of_no_target hlt ht]
      exact ⟨rfl, by simp only [ht]; rfl⟩
    | cons near rest =>
      obtain ⟨hahead, hmax⟩ := h.ahead near (by simp [ht])
      rw [rampStep_of_ahead hlt ht hahead.le hmax]
      exact ⟨rfl, by simp only [ht]⟩

/-! ### Sync pulses one after another (R62, R63) -/

section
variable {s t u : State} {j : LaneId}

/-- t agrees with u on lane j and its group. -/
def AgreesOn (j : LaneId) (t u : State) : Prop :=
  t.lane j = u.lane j ∧ t.events.groups[laneGroup j] = u.events.groups[laneGroup j]

theorem Lane.awaitsSync_begun (l : Lane) (r : ReturnState) : (l.begun r).awaitsSync = false := by
  have := l.begun_arm r
  unfold Lane.awaitsSync
  rw [this]
  cases (l.begun r).state <;> rfl

/-- A lane that a pulse has reached is not ARMED on SYNC any more: a second pulse does nothing. -/
theorem pulse_pulse (s : State) (j : LaneId) : (s.pulse j).pulse j = s.pulse j := by
  by_cases h : (s.lane j).awaitsSync = true
  · have hp : s.pulse j = s.startArmed j := if_pos h
    have hstart : ((s.pulse j).lane j).awaitsSync = false := by
      unfold Lane.awaitsSync at h
      split at h
      · rename_i a hs ha
        rw [hp, State.startArmed_eq hs ha, State.raise_lane, State.lane_setLane_same]
        exact Lane.awaitsSync_begun _ _
      · cases h
    exact if_neg (by simp [hstart])
  · have hp : s.pulse j = s := if_neg h
    rw [hp, hp]

/-- Changes of lanes and factors alone, one after another. -/
theorem lanesAndEvents_trans (a : t = { s with lanes := t.lanes, events := t.events })
    (b : u = { t with lanes := u.lanes, events := u.events }) : u = { s with lanes := u.lanes, events := u.events } := by
  rw [b, a]

/-- A pulse sent to a set of lanes: each lane of the set is as its own pulse leaves it, and nothing else changes. -/
theorem pulses_spec (s : State) (mask : LaneSet) :
    s.pulses mask = { s with lanes := (s.pulses mask).lanes, events := (s.pulses mask).events } ∧
    (s.pulses mask).events.mask = s.events.mask ∧
    (∀ g : GroupId, (∀ k, g ≠ laneGroup k) → (s.pulses mask).events.groups[g] = s.events.groups[g]) ∧
    ∀ j : LaneId, AgreesOn j (s.pulses mask) (if mask.getLsbD j.val then s.pulse j else s) := by
  have hnodup : (allLanes.filter fun i => mask.getLsbD i.val).Nodup := List.Nodup.filter _ (by decide)
  obtain ⟨h1, h2, h3⟩ := foldl_lanes LaneAlone.pulse pulse_local hnodup s
  refine ⟨h1, (LaneWork.pulses s mask).mask, h2, fun j => ?_⟩
  obtain ⟨hin, hout⟩ := h3 j
  split
  · rename_i hj
    exact hin (List.mem_filter.mpr ⟨mem_allLanes j, hj⟩)
  · rename_i hj
    exact hout fun hmem => hj (List.mem_filter.mp hmem).2

/-- Pulses sent to one set of lanes after another: each lane of any set is as one pulse of its own leaves it. -/
theorem foldl_pulses_spec {α : Type} (m : α → LaneSet) (ks : List α) (s : State) :
    let t := ks.foldl (fun s k => s.pulses (m k)) s
    t = { s with lanes := t.lanes, events := t.events } ∧ t.events.mask = s.events.mask ∧
    (∀ g : GroupId, (∀ k, g ≠ laneGroup k) → t.events.groups[g] = s.events.groups[g]) ∧
    ∀ j : LaneId, ((∃ k ∈ ks, (m k).getLsbD j.val = true) → AgreesOn j t (s.pulse j)) ∧
      ((¬ ∃ k ∈ ks, (m k).getLsbD j.val = true) → AgreesOn j t s) := by
  induction ks generalizing s with
  | nil => exact ⟨rfl, rfl, fun _ _ => rfl, fun j => ⟨fun h => by simp at h, fun _ => ⟨rfl, rfl⟩⟩⟩
  | cons k ks ih =>
    obtain ⟨p1, p2, p3, p4⟩ := pulses_spec s (m k)
    obtain ⟨t1, t2, t3, t4⟩ := ih (s.pulses (m k))
    refine ⟨lanesAndEvents_trans p1 t1, t2.trans p2, fun g hg => (t3 g hg).trans (p3 g hg), fun j => ?_⟩
    obtain ⟨tin, tout⟩ := t4 j
    obtain ⟨pl, pg⟩ := p4 j
    simp only [List.foldl_cons, List.mem_cons, exists_eq_or_imp]
    by_cases hks : ∃ k ∈ ks, (m k).getLsbD j.val = true
    · refine ⟨fun _ => ?_, fun h => absurd (.inr hks) h⟩
      obtain ⟨l1, g1⟩ := tin hks
      obtain ⟨l2, g2⟩ := pulse_local _ _ j pl pg
      have hpulse : (if (m k).getLsbD j.val then s.pulse j else s).pulse j = s.pulse j := by
        split
        · exact pulse_pulse s j
        · rfl
      rw [hpulse] at l2 g2
      exact ⟨l1.trans l2, g1.trans g2⟩
    · obtain ⟨l1, g1⟩ := tout hks
      by_cases hk : (m k).getLsbD j.val = true
      · rw [if_pos hk] at pl pg
        exact ⟨fun _ => ⟨l1.trans pl, g1.trans pg⟩, fun h => absurd (.inl hk) h⟩
      · rw [if_neg hk] at pl pg
        exact ⟨fun h => absurd h (not_or.mpr ⟨hk, hks⟩), fun _ => ⟨l1.trans pl, g1.trans pg⟩⟩

end

/-! ### The step part of an advance (R10 to R14, R62) -/

/-- The state once a lane has landed, before it comes to rest: its factors are raised (R11, R13, R14). -/
def State.landed (s : State) (i : LaneId) (r : StepResult) : State :=
  let hit := r.lane.landed
  let l := r.lane.land r.ramp
  let s := s.setLane i l
  let s := (holdDwells hit).foldl (fun s _ => s.raise (.holdReached i)) s
  let s := (stopCues hit).foldl (fun s k => s.raise (.cue i k)) s
  let s := if r.braking > r.lane.accel then s.raise (.shortBrake i) else s
  if l.state = .stopped then s.raise (.stopped i) else s

/-- A landing raises its factors, comes to rest, and then sends the pulses of the stop targets' cues (R62). -/
theorem State.landOn_eq (s : State) (i : LaneId) (r : StepResult) :
    s.landOn i r = (stopCues r.lane.landed).foldl
      (fun s k => s.pulses (r.lane.land r.ramp).cues[k].syncMask) ((s.landed i r).comesToRest 0 i) := rfl

section
variable {s : State} {i : LaneId} {r : StepResult}

theorem State.landed_factors (s : State) (i : LaneId) (r : StepResult) : LaneFactors i s (s.landed i r) := by
  have h := ((LaneFactors.setLane s i (r.lane.land r.ramp)).raises (f := fun _ : Nat => .holdReached i) (fun _ => rfl)
    (holdDwells r.lane.landed)).raises (f := fun k => .cue i k) (fun _ => rfl) (stopCues r.lane.landed)
  have h' := LaneFactors.ite (p := r.braking > r.lane.accel) (h.raise (f := .shortBrake i) rfl) h
  exact .ite (h'.raise (f := .stopped i) rfl) h'

theorem State.raises_lane {α : Type} (f : α → Factor) (as : List α) (s : State) (j : LaneId) :
    (as.foldl (fun s a => s.raise (f a)) s).lane j = s.lane j :=
  State.lane_congr (foldl_keeps_lanes (fun s a => s.raise_lanes (f a)) as s) j

theorem State.landed_lane (s : State) (i : LaneId) (r : StepResult) : (s.landed i r).lane i = r.lane.land r.ramp := by
  have hite {p : Prop} [Decidable p] (u : State) (f : Factor) : (if p then u.raise f else u).lane i = u.lane i := by
    split <;> rfl
  unfold State.landed
  simp only [hite]
  rw [State.raises_lane, State.raises_lane, State.lane_setLane_same]

theorem State.raise_if_pending {p : Prop} [Decidable p] (s : State) {f : Factor} (hf : f.group = laneGroup i) {n : Nat}
    (h : n < 16) :
    (if p then s.raise f else s).events.groups[laneGroup i].pending.getLsbD n = true ↔
      s.events.groups[laneGroup i].pending.getLsbD n = true ∨
        p ∧ n = f.place ∧ (13 ≤ n ∨ s.events.groups[laneGroup i].enable.getLsbD n = true) := by
  split
  · rename_i hp
    rw [State.raise_pending_getLsbD s hf h]
    simp only [hp, true_and]
  · rename_i hp
    simp only [hp, false_and, or_false]

/-- The factors of a landing (R11, R13, R14). -/
theorem State.landed_pending (s : State) (i : LaneId) (r : StepResult) {n : Nat} (h : n < 16) :
    (s.landed i r).events.groups[laneGroup i].pending.getLsbD n = true ↔
      s.events.groups[laneGroup i].pending.getLsbD n = true ∨ n = 13 ∧ r.lane.accel < r.braking ∨
        s.events.groups[laneGroup i].enable.getLsbD n = true ∧
          (n = 3 ∧ (∃ d, { travel := r.lane.travel, kind := .hold d } ∈ r.lane.targets) ∨
            (∃ k : CueId, n = 5 + k.val ∧ { travel := r.lane.travel, kind := .stop k } ∈ r.lane.targets) ∨
            n = 1 ∧ (r.lane.land r.ramp).state = .stopped) := by
  have h0 := LaneFactors.setLane s i (r.lane.land r.ramp)
  have h1 := h0.raises (f := fun _ : Nat => .holdReached i) (fun _ => rfl) (holdDwells r.lane.landed)
  have h2 := h1.raises (f := fun k => .cue i k) (fun _ => rfl) (stopCues r.lane.landed)
  have h3 := LaneFactors.ite (p := r.braking > r.lane.accel) (h2.raise (f := .shortBrake i) rfl) h2
  have hhold : (∃ a ∈ holdDwells r.lane.landed, n = (Factor.holdReached i).place) ↔
      n = 3 ∧ ∃ d, { travel := r.lane.travel, kind := .hold d } ∈ r.lane.targets := by
    simp only [Lane.mem_holdDwells_landed, Factor.place]; tauto
  have hcue : (∃ k ∈ stopCues r.lane.landed, n = (Factor.cue i k).place) ↔
      ∃ k : CueId, n = 5 + k.val ∧ { travel := r.lane.travel, kind := .stop k } ∈ r.lane.targets := by
    simp only [Lane.mem_stopCues_landed, Factor.place]; tauto
  unfold State.landed
  simp only
  rw [State.raise_if_pending _ rfl h, h3.enable, State.raise_if_pending _ rfl h, h2.enable,
    raises_pending (fun _ => rfl) _ _ h, h1.enable, raises_pending (fun _ => rfl) _ _ h, h0.enable, hhold, hcue]
  have hc5 : (∃ k : CueId, n = 5 + k.val ∧ { travel := r.lane.travel, kind := .stop k } ∈ r.lane.targets) → n < 13 := by
    rintro ⟨k, rfl, -⟩; omega
  simp only [State.setLane_events, Factor.place]
  generalize (∃ k : CueId, n = 5 + k.val ∧ { travel := r.lane.travel, kind := .stop k } ∈ r.lane.targets) = stops at hc5 ⊢
  generalize (∃ d, { travel := r.lane.travel, kind := .hold d } ∈ r.lane.targets) = holds
  generalize (s.events.groups[laneGroup i].pending.getLsbD n = true) = old
  generalize (s.events.groups[laneGroup i].enable.getLsbD n = true) = enabled
  generalize (r.lane.land r.ramp).state = st
  clear h0 h1 h2 h3 hhold hcue
  by_cases h13 : 13 ≤ n
  · have h1 : n ≠ 1 := by omega
    have h3 : n ≠ 3 := by omega
    have hs : ¬ stops := fun hs => absurd (hc5 hs) (by omega)
    simp only [h13, h1, h3, hs]; tauto
  · have h13' : n ≠ 13 := by omega
    simp only [h13, h13']; tauto

end

/-- Settles O29: `step_follows_rules`, `land_follows_rules`, and the step part, whose landing is `State.landed`, a coming to
rest and pulses. -/
theorem stepsStopAtTargetsAndLandOnThem : Obligations.StepsStopAtTargetsAndLandOnThem := by
  refine ⟨step_follows_rules, land_follows_rules, fun s i => ?_⟩
  intro l r t stop
  have htargets : r.lane.targets = l.targets := by
    obtain ⟨st, tr, v, b, e, -⟩ := stepLane_keeps l
    rw [show r.lane = _ from e]
  have hcues : r.lane.cues = l.cues := by
    obtain ⟨st, tr, v, b, e, -⟩ := stepLane_keeps l
    rw [show r.lane = _ from e]
  refine ⟨fun hn hs => ?_, fun hn hs => ?_, fun hreach => ?_⟩
  · have : t = if r.lane.state = .stopped then ((s.setLane i r.lane).raise (.stopped i)).comesToRest 0 i
        else s.setLane i r.lane := if_neg (ne_true_of_eq_false hn)
    rw [this, if_neg hs]
  · have : t = if r.lane.state = .stopped then ((s.setLane i r.lane).raise (.stopped i)).comesToRest 0 i
        else s.setLane i r.lane := if_neg (ne_true_of_eq_false hn)
    rw [this, if_pos hs]
  · have ht : t = s.landOn i r := if_pos hreach
    have hf := s.landed_factors i r
    refine ⟨s.landed i r, hf.rest, s.landed_lane i r, hf.lanes, hf.mask, hf.groups, hf.group, fun n hn => ?_,
      fun mask hmask => ?_⟩
    · rw [State.landed_pending s i r hn, State.landed_lane]
      simp only [htargets]
      exact Iff.rfl
    · rw [State.landOn_eq] at ht
      obtain ⟨h1, h2, h3, h4⟩ := foldl_pulses_spec (fun k => (r.lane.land r.ramp).cues[k].syncMask)
        (stopCues r.lane.landed) ((s.landed i r).comesToRest 0 i)
      rw [← ht] at h1 h2 h3 h4
      have hrest := LaneWork.comesToRest (s.landed i r) 0 i
      have hrestSpec := foldl_lanes (LaneAlone.meetCondition 0) (meetCondition_local 0)
        (show (allLanes.filter ((s.landed i r).restMeets i)).Nodup from List.Nodup.filter _ (by decide)) (s.landed i r)
      have hbits (j : LaneId) : mask.getLsbD j.val = true ↔
          ∃ k ∈ stopCues r.lane.landed, ((r.lane.land r.ramp).cues[k].syncMask).getLsbD j.val = true := by
        rw [hmask]
        simp only [Lane.mem_stopCues_landed, Lane.land_syncMask, hcues, htargets]
        exact Iff.rfl
      refine ⟨?_, ?_, fun g hg => ?_, fun j => ?_⟩
      · exact lanesAndEvents_trans (lanesAndEvents_trans hf.rest hrestSpec.1) h1
      · exact h2.trans (hrest.mask.trans hf.mask)
      · exact (h3 g hg).trans ((hrestSpec.2.1 g hg).trans (hf.groups g (hg i)))
      · obtain ⟨-, -, -, hp⟩ := pulses_spec ((s.landed i r).comesToRest 0 i) mask
        obtain ⟨hin, hout⟩ := h4 j
        obtain ⟨pl, pg⟩ := hp j
        by_cases hj : mask.getLsbD j.val = true
        · rw [if_pos hj] at pl pg
          obtain ⟨tl, tg⟩ := hin ((hbits j).mp hj)
          exact ⟨tl.trans pl.symm, tg.trans pg.symm⟩
        · rw [if_neg hj] at pl pg
          obtain ⟨tl, tg⟩ := hout fun h => hj ((hbits j).mpr h)
          exact ⟨tl.trans pl.symm, tg.trans pg.symm⟩

end Sys2Proof.Machine

namespace Sys2Proof.Machine

/-! ### Run lists that name their own lane's items -/

/-- An item in the slot, if there is one, belongs to the lane. -/
def State.OwnedBy (s : State) (j : LaneId) (k : Nat) : Prop := ∀ it, s.item? k = some it → it.lane = j

/-- The part of `ListsAgree` that the acts of a frame start keep among themselves: no run list names an item of another
lane. -/
structure State.OwnLists (s : State) : Prop where
  rising : tableRising s.pool.items = true
  own : ∀ j, ∀ k ∈ (s.lane j).visible ++ (s.lane j).queued, s.OwnedBy j k

theorem State.ListsAgree.ownLists {s : State} (h : s.ListsAgree) : s.OwnLists := by
  refine ⟨h.rising, fun j k hk it hit => ?_⟩
  obtain ⟨it', hit', hlane⟩ : ∃ it', s.item? k = some it' ∧ it'.lane = j := by
    rcases List.mem_append.mp hk with hk | hk
    · obtain ⟨it', h1, h2, -⟩ := h.visible j k hk; exact ⟨it', h1, h2⟩
    · obtain ⟨it', h1, h2, -⟩ := h.queued j k hk; exact ⟨it', h1, h2⟩
  cases hit.symm.trans hit'
  exact hlane

/-- Lane i is out of reach of the work of other lanes: it is not ARMED, so no coming to rest and no pulse starts it, and no
item freed by another lane stands in its run list. The hypothesis G is what is known of the run lists. -/
def State.Apart (G : Prop) (s : State) (i : LaneId) : Prop :=
  (s.lane i).state ≠ .armed ∧ ((s.lane i).visible = [] ∧ (s.lane i).queued = [] ∨ G ∧ s.OwnLists)

/-- An item after work that is not its lane's: as it was, or with its cell marked forced-stale (R107). -/
def StaleLike (it it' : Item) : Prop := it' = it ∨ it' = it.forceStale

theorem StaleLike.lane {it it' : Item} (h : StaleLike it it') : it'.lane = it.lane := by
  rcases h with rfl | rfl <;> rfl

theorem Item.forceStale_forceStale (it : Item) : it.forceStale.forceStale = it.forceStale := by
  unfold Item.forceStale; cases it.cell <;> rfl

theorem StaleLike.trans {a b c : Item} (h : StaleLike a b) (h' : StaleLike b c) : StaleLike a c := by
  rcases h with rfl | rfl
  · exact h'
  · rcases h' with rfl | rfl
    · exact .inr rfl
    · exact .inr a.forceStale_forceStale

/-- t is s after work of lane j, or, for none, of no lane in particular: every other lane that is apart keeps its record and
the factors below place 14 of its group, run lists still name their own items, items keep their lanes, and those of other
lanes change in their forced-stale mark alone. What it says of run lists and items is said under G. -/
structure WorkOf (G : Prop) (j : Option LaneId) (s t : State) : Prop where
  own : G → s.OwnLists → t.OwnLists
  origin : G → s.OwnLists → ∀ k it', t.item? k = some it' → ∃ it, s.item? k = some it ∧ it'.lane = it.lane
  lane : ∀ i, j ≠ some i → s.Apart G i → t.lane i = s.lane i
  pending : ∀ i, j ≠ some i → s.Apart G i → ∀ n < 14,
    t.events.groups[laneGroup i].pending.getLsbD n = s.events.groups[laneGroup i].pending.getLsbD n
  items : ∀ i, j ≠ some i → G → s.OwnLists → ∀ k it, s.item? k = some it → it.lane = i →
    ∃ it', t.item? k = some it' ∧ StaleLike it it'

section
variable {G : Prop} {s t u : State} {j : Option LaneId} {i : LaneId}

theorem WorkOf.refl (G : Prop) (j : Option LaneId) (s : State) : WorkOf G j s s :=
  ⟨fun _ => id, fun _ _ _ it h => ⟨it, h, rfl⟩, fun _ _ _ => rfl, fun _ _ _ _ _ => rfl,
    fun _ _ _ _ _ it h _ => ⟨it, h, .inl rfl⟩⟩

theorem WorkOf.apart (w : WorkOf G j s t) (hj : j ≠ some i) (h : s.Apart G i) : t.Apart G i := by
  obtain ⟨hs, hl⟩ := h
  have e := w.lane i hj ⟨hs, hl⟩
  rw [State.Apart, e]
  exact ⟨hs, hl.imp id fun ⟨hG, h⟩ => ⟨hG, w.own hG h⟩⟩

theorem WorkOf.trans (a : WorkOf G j s t) (b : WorkOf G j t u) : WorkOf G j s u where
  own hG h := b.own hG (a.own hG h)
  origin hG h k it'' h'' := by
    obtain ⟨it', h', e'⟩ := b.origin hG (a.own hG h) k it'' h''
    obtain ⟨it, h, e⟩ := a.origin hG h k it' h'
    exact ⟨it, h, e'.trans e⟩
  lane i hj h := (b.lane i hj (a.apart hj h)).trans (a.lane i hj h)
  pending i hj h n hn := (b.pending i hj (a.apart hj h) n hn).trans (a.pending i hj h n hn)
  items i hj hG h k it hk hi := by
    obtain ⟨it', hk', e'⟩ := a.items i hj hG h k it hk hi
    obtain ⟨it'', hk'', e''⟩ := b.items i hj hG (a.own hG h) k it' hk' (e'.lane.trans hi)
    exact ⟨it'', hk'', e'.trans e''⟩

theorem WorkOf.foldl {α : Type} {f : State → α → State} (h : ∀ s a, WorkOf G j s (f s a)) (as : List α) (s : State) :
    WorkOf G j s (as.foldl f s) := by
  induction as generalizing s with
  | nil => exact .refl G j s
  | cons a as ih => exact (h s a).trans (ih (f s a))

/-- What is said of run lists and items may be proved from the run lists of the first state. -/
theorem WorkOf.of_ownLists (w : WorkOf (G ∧ s.OwnLists) j s t) : WorkOf G j s t := by
  have apart {i : LaneId} (h : s.Apart G i) : s.Apart (G ∧ s.OwnLists) i :=
    ⟨h.1, h.2.imp id fun ⟨hG, h⟩ => ⟨⟨hG, h⟩, h⟩⟩
  exact ⟨fun hG h => w.own ⟨hG, h⟩ h, fun hG h => w.origin ⟨hG, h⟩ h, fun i hj h => w.lane i hj (apart h),
    fun i hj h => w.pending i hj (apart h), fun i hj hG h => w.items i hj ⟨hG, h⟩ h⟩

/-- An item of a lane stays of that lane. -/
theorem WorkOf.owned (w : WorkOf G j s t) (hG : G) (h : s.OwnLists) {k : Nat} (hk : s.OwnedBy i k) : t.OwnedBy i k := by
  intro it' hit'
  obtain ⟨it, hit, e⟩ := w.origin hG h k it' hit'
  exact e.trans (hk it hit)

/-- Work that leaves lanes, items and factors alone. -/
theorem WorkOf.of_same (hl : t.lanes = s.lanes) (hp : t.pool.items = s.pool.items) (he : t.events = s.events) :
    WorkOf G j s t := by
  have hlane (i : LaneId) : t.lane i = s.lane i := State.lane_congr hl i
  have hitem (k : Nat) : t.item? k = s.item? k := by simp only [State.item?, hp]
  refine ⟨fun _ h => ⟨hp ▸ h.rising, fun i k hk it hit => ?_⟩, fun _ _ k it h => ⟨it, hitem k ▸ h, rfl⟩, fun i _ _ => hlane i,
    fun _ _ _ _ _ => by rw [he], fun _ _ _ _ k it h _ => ⟨it, (hitem k).trans h, .inl rfl⟩⟩
  rw [hlane] at hk
  exact h.own i k hk it (hitem k ▸ hit)

/-- A factor raised by a lane for itself. -/
theorem WorkOf.raise_own (s : State) {j : LaneId} {f : Factor} (hf : f.group = laneGroup j) :
    WorkOf G (some j) s (s.raise f) :=
  ⟨fun _ h => ⟨h.rising, h.own⟩, fun _ _ _ it h => ⟨it, h, rfl⟩, fun _ _ _ => rfl,
    fun i hj _ n _ => by
      have hne : laneGroup i ≠ f.group := fun e => hj (by rw [hf] at e; exact congrArg some (by
        by_contra hij; exact laneGroup_ne hij e.symm))
      rw [State.raise_events, EventUnit.record_groups, if_neg hne],
    fun _ _ _ _ _ it h _ => ⟨it, h, .inl rfl⟩⟩

/-- A factor that no lane raises for itself. -/
theorem WorkOf.raise_other (s : State) {f : Factor} (hf : (∀ i, f.group ≠ laneGroup i) ∨ 14 ≤ f.place) :
    WorkOf G j s (s.raise f) :=
  ⟨fun _ h => ⟨h.rising, h.own⟩, fun _ _ _ it h => ⟨it, h, rfl⟩, fun _ _ _ => rfl,
    fun i _ _ n hn => by
      by_cases hg : f.group = laneGroup i
      · have hp : 14 ≤ f.place := hf.resolve_left fun h => h i hg
        rw [Bool.eq_iff_iff, State.raise_pending_getLsbD s hg (by omega)]
        exact or_iff_left fun h => absurd h.1 (by omega)
      · rw [State.raise_events, EventUnit.record_groups, if_neg (Ne.symm hg)],
    fun _ _ _ _ _ it h _ => ⟨it, h, .inl rfl⟩⟩

/-- A lane changed, its run list naming items of its own. -/
theorem WorkOf.setLane {j : LaneId} {l : Lane} (h : G → s.OwnLists → ∀ k ∈ l.visible ++ l.queued, s.OwnedBy j k) :
    WorkOf G (some j) s (s.setLane j l) := by
  have hne {i : LaneId} (hj : some j ≠ some i) : (s.setLane j l).lane i = s.lane i :=
    s.lane_setLane_ne (fun e => hj (congrArg some e)) l
  refine ⟨fun hG hs => ⟨hs.rising, fun i k hk => ?_⟩, fun _ _ k it h => ⟨it, h, rfl⟩, fun i hj _ => hne hj,
    fun _ _ _ _ _ => rfl, fun _ _ _ _ k it h _ => ⟨it, h, .inl rfl⟩⟩
  by_cases e : j = i
  · subst e
    rw [State.lane_setLane_same] at hk
    exact h hG hs k hk
  · rw [hne (fun h => e (Option.some.inj h))] at hk
    exact hs.own i k hk

/-- A lane changed in anything but its run list. -/
theorem WorkOf.setLane_same {j : LaneId} {l : Lane} (hv : l.visible = (s.lane j).visible)
    (hq : l.queued = (s.lane j).queued) : WorkOf G (some j) s (s.setLane j l) :=
  .setLane fun _ h k hk => h.own j k (by rwa [hv, hq] at hk)

theorem WorkOf.updLane_same {j : LaneId} {f : Lane → Lane} (hv : (f (s.lane j)).visible = (s.lane j).visible)
    (hq : (f (s.lane j)).queued = (s.lane j).queued) : WorkOf G (some j) s (s.updLane j f) := .setLane_same hv hq

/-- An item leaves the run list of its lane. -/
theorem WorkOf.dropItem (s : State) (j : LaneId) (k : Nat) : WorkOf G (some j) s (s.updLane j (Lane.dropItem k)) :=
  .setLane fun _ h n hn => h.own j n <| by
    rcases List.mem_append.mp hn with hn | hn
    · exact List.mem_append_left _ (List.mem_of_mem_erase hn)
    · exact List.mem_append_right _ (List.mem_of_mem_erase hn)

/-- A record of an item changed, its lane kept. -/
theorem WorkOf.updItem (s : State) {k : Nat} {f : Item → Item} (hf : ∀ it, (f it).lane = it.lane)
    (hi : G → s.OwnLists → ∀ it, s.item? k = some it → j = some it.lane ∨ StaleLike it (f it)) :
    WorkOf G j s (s.updItem k f) := by
  have origin (n : Nat) (it' : Item) (h : (s.updItem k f).item? n = some it') :
      ∃ it, s.item? n = some it ∧ it'.lane = it.lane := by
    rw [State.item?_updItem] at h
    split at h
    · rename_i e
      subst e
      obtain ⟨it, hit, rfl⟩ := Option.map_eq_some_iff.mp h
      exact ⟨it, hit, hf it⟩
    · exact ⟨it', h, rfl⟩
  refine ⟨fun _ h => ⟨by rw [State.updItem_pool]; exact (tableRising_update f).trans h.rising, fun i n hn it' hit' => ?_⟩,
    fun _ _ => origin, fun _ _ _ => rfl, fun _ _ _ _ _ => rfl, fun i hj hG hs n it hit hlane => ?_⟩
  · obtain ⟨it, hit, e⟩ := origin n it' hit'
    exact e.trans (h.own i n hn it hit)
  · rw [State.item?_updItem]
    split
    · rename_i e
      subst e
      refine ⟨f it, by rw [hit]; rfl, (hi hG hs it hit).resolve_left fun e => hj (e.trans (congrArg some hlane))⟩
    · exact ⟨it, hit, .inl rfl⟩

/-- A record of an item of the working lane changed. -/
theorem WorkOf.updItem_own {j : LaneId} (s : State) {k : Nat} {f : Item → Item} (hf : ∀ it, (f it).lane = it.lane)
    (hk : G → s.OwnLists → s.OwnedBy j k) : WorkOf G (some j) s (s.updItem k f) :=
  .updItem s hf fun hG hs it hit => .inl (congrArg some (hk hG hs it hit).symm)

/-! ### Views, references and refreshes -/

@[simp] theorem State.dropReference_events (s : State) (c : Content) : (s.dropReference c).events = s.events := by
  cases c <;> rfl
@[simp] theorem State.joinView_events (s : State) (k : Nat) (c : Content) : (s.joinView k c).events = s.events := by
  cases c <;> rfl
@[simp] theorem State.leaveView_events (s : State) (k : Nat) (c : Content) : (s.leaveView k c).events = s.events := by
  cases c <;> rfl

theorem WorkOf.leaveView (s : State) (k : Nat) (c : Content) : WorkOf G j s (s.leaveView k c) :=
  .of_same (s.leaveView_lanes k c) (by rw [State.leaveView_pool]) (s.leaveView_events k c)

theorem WorkOf.joinView (s : State) (k : Nat) (c : Content) : WorkOf G j s (s.joinView k c) :=
  .of_same (s.joinView_lanes k c) (by rw [State.joinView_pool]) (s.joinView_events k c)

theorem WorkOf.dropReference (s : State) (c : Content) : WorkOf G j s (s.dropReference c) :=
  .of_same (s.dropReference_lanes c) (by rw [State.dropReference_pool]) (s.dropReference_events c)

theorem WorkOf.takeRefresh (s : State) : WorkOf G j s s.takeRefresh := by
  rcases s.takeRefresh_cases with ⟨-, h⟩ | ⟨slot, rest, x, -, -, h⟩ <;> rw [h]
  · exact .refl G j s
  · exact .of_same rfl rfl rfl

/-- An offer marks at most a cell, and raises REFRESH_DROPPED at place 14 (R107). -/
theorem WorkOf.offer (s : State) (k : Nat) : WorkOf G j s (s.offer k) := by
  unfold State.offer
  split
  · exact .refl G j s
  · split
    · split
      · rename_i it _
        have hmark : WorkOf G j s (s.updItem k Item.forceStale) := .updItem s (fun _ => rfl) fun _ _ _ _ => .inr (.inr rfl)
        have hraise : WorkOf G j (s.updItem k Item.forceStale) ((s.updItem k Item.forceStale).raise (.refreshDropped it.lane)) :=
          .raise_other _ (.inr (by simp [Factor.place]))
        exact (hmark.trans hraise).trans (.of_same rfl rfl rfl)
      · exact .refl G j s
    · refine WorkOf.trans ?_ (.takeRefresh _)
      exact .of_same rfl rfl rfl

theorem WorkOf.checkSymbol (s : State) (k : Nat) : WorkOf G j s (s.checkSymbol k) := by
  have hoffer (s : State) : WorkOf G j s (s.offerView k) := by
    unfold State.offerView
    split
    · exact .foldl .offer _ s
    · exact .refl G j s
  have hstale : ∀ i, Factor.stale.group ≠ laneGroup i := by decide
  unfold State.checkSymbol
  split
  · split
    · refine WorkOf.trans (WorkOf.trans ?_ (hoffer _)) (.raise_other _ (.inl hstale))
      exact .of_same rfl rfl rfl
    · exact .refl G j s
  · exact .refl G j s

/-! ### Items freed and disposed of -/

theorem Lane.dropItem_of_empty {l : Lane} (hv : l.visible = []) (hq : l.queued = []) (k : Nat) : l.dropItem k = l := by
  cases l; cases hv; cases hq; rfl

/-- A lane frees an item of its own (R31). -/
theorem WorkOf.freeItem {j : LaneId} (s : State) {k : Nat} (hk : G → s.OwnLists → s.OwnedBy j k) :
    WorkOf G (some j) s (s.freeItem k) := by
  cases hit : s.item? k with
  | none => rw [State.freeItem_none hit]; exact .refl G _ s
  | some it =>
    obtain ⟨hlanes, hitems⟩ := State.freeItem_eq hit
    have hlane (i : LaneId) : (s.freeItem k).lane i = if it.lane = i then (s.lane i).dropItem k else s.lane i := by
      rw [State.lane_congr hlanes i, State.lane_updLane]; split_ifs with e
      · rw [e]
      · rfl
    have hevents : (s.freeItem k).events = s.events := by
      unfold State.freeItem
      simp only [hit, State.dropReference_events, State.updLane_events]
      split <;> simp
    have origin (hs : s.OwnLists) (n : Nat) (it' : Item) (h : (s.freeItem k).item? n = some it') : s.item? n = some it' := by
      rw [State.freeItem_item hs.rising] at h
      split at h
      · cases h
      · exact h
    refine ⟨fun _ hs => ⟨State.freeItem_rising hs.rising k, fun i n hn it' hit' => ?_⟩,
      fun _ hs n it' h => ⟨it', origin hs n it' h, rfl⟩, fun i hj hi => ?_, fun _ _ _ _ _ => by rw [hevents],
      fun i hj hG hs n it' hit' hlane' => ⟨it', ?_, .inl rfl⟩⟩
    · refine hs.own i n ?_ it' (origin hs n it' hit')
      rw [hlane] at hn
      split at hn
      · rcases List.mem_append.mp hn with hn | hn
        · exact List.mem_append_left _ (List.mem_of_mem_erase hn)
        · exact List.mem_append_right _ (List.mem_of_mem_erase hn)
      · exact hn
    · rw [hlane]
      split
      · rename_i e
        rcases hi.2 with ⟨hv, hq⟩ | ⟨hG, hs⟩
        · exact Lane.dropItem_of_empty hv hq k
        · exact absurd (congrArg some ((hk hG hs it hit).symm.trans e)) hj
      · rfl
    · rw [State.freeItem_item hs.rising, if_neg ?_, hit']
      rintro rfl
      exact hj (congrArg some ((hk hG hs it' hit').symm.trans hlane'))

/-- A lane disposes of an item of its own (R37, R41). -/
theorem WorkOf.disposeItem {j : LaneId} (s : State) {k : Nat} (hk : G → s.OwnLists → s.OwnedBy j k) (n : Nat) :
    WorkOf G (some j) s (s.disposeItem j k n) := by
  unfold State.disposeItem
  split
  · exact (WorkOf.freeItem s hk).trans (.raise_own _ rfl)
  · refine .of_ownLists ?_
    have hitem : WorkOf (G ∧ s.OwnLists) (some j) s (s.updItem k fun it => { it with passes := n - 1 }) :=
      .updItem_own s (fun _ => rfl) fun hG hs => hk hG.1 hs
    refine hitem.trans (.setLane fun hG hs m hm => ?_)
    rcases List.mem_append.mp hm with hm | hm
    · exact hs.own j m (List.mem_append_left _ hm)
    · rcases List.mem_append.mp hm with hm | hm
      · exact hs.own j m (List.mem_append_right _ hm)
      · obtain rfl := List.mem_singleton.mp hm
        exact hitem.owned hG hG.2 (hk hG.1 hG.2)

end

end Sys2Proof.Machine

namespace Sys2Proof.Machine

section
variable {G : Prop} {s t : State} {j : Option LaneId} {i : LaneId}

/-! ### Starts and comings to rest, as work of no lane -/

@[simp] theorem Lane.begun_visible (l : Lane) (r : ReturnState) : (l.begun r).visible = l.visible := by
  unfold Lane.begun; split <;> rfl

@[simp] theorem Lane.begun_queued (l : Lane) (r : ReturnState) : (l.begun r).queued = l.queued := by
  unfold Lane.begun; split <;> rfl

/-- Changes of one lane and its factors alone, its run list kept. -/
theorem WorkOf.of_alone (h : LaneAlone i s t) (hv : (t.lane i).visible = (s.lane i).visible)
    (hq : (t.lane i).queued = (s.lane i).queued) : WorkOf G (some i) s t := by
  have hitem (k : Nat) : t.item? k = s.item? k := by rw [h.rest]; rfl
  have hlane {m : LaneId} (hm : some i ≠ some m) : t.lane m = s.lane m := h.lanes m fun e => hm (congrArg some e.symm)
  refine ⟨fun _ hs => ⟨by rw [h.rest]; exact hs.rising, fun m k hk it hit => ?_⟩, fun _ _ k it hit => ⟨it, hitem k ▸ hit, rfl⟩,
    fun m hm _ => hlane hm, fun m hm _ n _ => ?_, fun m _ _ _ k it hit _ => ⟨it, (hitem k).trans hit, .inl rfl⟩⟩
  · refine hs.own m k ?_ it (hitem k ▸ hit)
    by_cases e : i = m
    · subst e; rwa [hv, hq] at hk
    · rwa [hlane fun h => e (Option.some.inj h)] at hk
  · have hne : laneGroup m ≠ laneGroup i := laneGroup_ne fun e => hm (congrArg some e.symm)
    rw [h.groups _ hne]

/-- The start of an ARMED lane disturbs no lane that is apart. -/
theorem WorkOf.startArmed (s : State) (k : LaneId) : WorkOf G j s (s.startArmed k) := by
  cases ha : (s.lane k).arm with
  | none =>
    have : s.startArmed k = s := by simp [State.startArmed, ha]
    rw [this]; exact .refl G j s
  | some a =>
    by_cases hs : (s.lane k).state = .armed
    · have e := State.startArmed_eq hs ha
      have halone := LaneAlone.startArmed s k
      have hlist : (((s.startArmed k).lane k).visible = (s.lane k).visible) ∧
          ((s.startArmed k).lane k).queued = (s.lane k).queued := by
        rw [e, State.raise_lane, State.lane_setLane_same]; simp
      have w : WorkOf G (some k) s (s.startArmed k) := .of_alone halone hlist.1 hlist.2
      have other {m : LaneId} (hm : s.Apart G m) : some k ≠ some m := fun h => by
        obtain rfl := Option.some.inj h
        exact hm.1 hs
      exact ⟨w.own, w.origin, fun m _ hm => w.lane m (other hm) hm, fun m _ hm => w.pending m (other hm) hm,
        fun _ _ _ _ n it hit _ => ⟨it, by rw [e]; exact hit, .inl rfl⟩⟩
    · have : s.startArmed k = s := by simp [State.startArmed, ha, hs]
      rw [this]; exact .refl G j s

theorem WorkOf.comesToRest (s : State) (k : LaneId) : WorkOf G j s (s.comesToRest 0 k) :=
  .foldl (fun s m => by
    have : s.meetCondition 0 m = s.startArmed m := if_neg (by simp)
    rw [this]
    exact .startArmed s m) _ s

theorem WorkOf.pulses (s : State) (mask : LaneSet) : WorkOf G j s (s.pulses mask) :=
  .foldl (fun s m => by
    unfold State.pulse
    split
    · exact .startArmed s m
    · exact .refl G j s) _ s

/-! ### Stops and the parts of an advance, as work of their lane -/

theorem WorkOf.setLane_raise {l : Lane} {f : Factor} (hf : f.group = laneGroup i) (hv : l.visible = (s.lane i).visible)
    (hq : l.queued = (s.lane i).queued) : WorkOf G (some i) s ((s.setLane i l).raise f) :=
  (WorkOf.setLane_same hv hq).trans (.raise_own _ hf)

theorem WorkOf.stopNow (s : State) (i : LaneId) : WorkOf G (some i) s (s.stopNow 0 i) := by
  have h : WorkOf G (some i) s ((s.setLane i { s.lane i with
      state := .stopped, velocity := 0, brake := none, dwell := 0, clearing := false }).raise (.stopped i)) :=
    .setLane_raise rfl rfl rfl
  unfold State.stopNow
  simp only
  split
  · exact h.trans (.comesToRest _ i)
  · exact h

/-- The stop actions of a cue are NOW and RAMP. -/
theorem WorkOf.applyStop {m : StopMode} (h : s.applyStop 0 i m = some t) : WorkOf G (some i) s t := by
  cases hs : (s.lane i).state with
  | off | idle | stopped | frozen => rw [applyStop_of_still (by simp [hs])] at h; cases h
  | armed =>
    cases m with
    | now =>
      rw [applyStop_armed_now hs] at h
      cases h
      exact .updLane_same (by unfold Lane.cancelArm; split <;> rfl) (by unfold Lane.cancelArm; split <;> rfl)
    | ramp | clear => rw [applyStop_armed_other hs (by simp)] at h; cases h
  | run | brake =>
    cases m with
    | now => rw [applyStop_now (by simp [hs])] at h; cases h; exact .stopNow s i
    | ramp =>
      rw [applyStop_moving_ramp (by simp [hs])] at h
      split at h <;> cases h
      exact .setLane_same rfl rfl
    | clear =>
      rw [applyStop_moving_clear (by simp [hs])] at h
      split at h <;> cases h
      exact .setLane_same rfl rfl
  | held =>
    cases m with
    | now => rw [applyStop_now (by simp [hs])] at h; cases h; exact .stopNow s i
    | ramp => rw [applyStop_held_ramp hs] at h; cases h; exact .setLane_raise rfl rfl rfl
    | clear =>
      rw [applyStop_held_clear hs] at h
      split at h <;> cases h
      exact .setLane_same rfl rfl

theorem WorkOf.stepPart (s : State) (i : LaneId) : WorkOf G (some i) s (s.stepPart i) := by
  obtain ⟨st, tr, v, b, e, -⟩ := stepLane_keeps (s.lane i)
  have hv : (stepLane (s.lane i)).lane.visible = (s.lane i).visible := by rw [e]
  have hq : (stepLane (s.lane i)).lane.queued = (s.lane i).queued := by rw [e]
  unfold State.stepPart
  simp only
  split
  · obtain ⟨st', v', b', d, ts, cs, e'⟩ := (stepLane (s.lane i)).lane.land_keeps (stepLane (s.lane i)).ramp
    have hland : WorkOf G (some i) s (s.landed i (stepLane (s.lane i))) :=
      .of_alone (s.landed_factors i _).toLaneAlone (by rw [State.landed_lane, e']; exact hv)
        (by rw [State.landed_lane, e']; exact hq)
    rw [State.landOn_eq]
    exact (hland.trans (.comesToRest _ i)).trans (.foldl (fun s k => .pulses s _) _ _)
  · split
    · exact (WorkOf.setLane_raise rfl hv hq).trans (.comesToRest _ i)
    · exact .setLane_same hv hq

/-- The retirement of an item of the lane. -/
theorem WorkOf.retire (s : State) {k : Nat} (hk : G → s.OwnLists → s.OwnedBy i k) (it : Item) :
    WorkOf G (some i) s (s.retire i k it) := by
  refine .of_ownLists ?_
  have hview : WorkOf (G ∧ s.OwnLists) (some i) s (s.leaveView k it.content) := .leaveView s k _
  have hcell := hview.trans (.updItem_own (f := fun it => { it with cell := none }) _ (fun _ => rfl) fun hG _ =>
    hview.owned hG hG.2 (hk hG.1 hG.2))
  have hdrop := hcell.trans (.dropItem _ i k)
  exact hdrop.trans (.disposeItem _ (fun hG _ => hdrop.owned hG hG.2 (hk hG.1 hG.2)) _)

theorem WorkOf.retireFrom (i : LaneId) (ks : List Nat) (s : State)
    (hk : G → s.OwnLists → ∀ k ∈ ks, s.OwnedBy i k) : WorkOf G (some i) s (s.retireFrom i ks) := by
  induction ks generalizing G s with
  | nil => exact .refl G _ s
  | cons k ks ih =>
    unfold State.retireFrom
    split
    · rename_i it _
      split
      · split
        · refine .of_ownLists ?_
          have hw : WorkOf (G ∧ s.OwnLists) (some i) s (s.retire i k it) :=
            .retire s (fun hG hs => hk hG.1 hs k (by simp)) it
          exact hw.trans (ih _ fun hG _ n hn => hw.owned hG hG.2 (hk hG.1 hG.2 n (by simp [hn])))
        · exact .refl G _ s
      · exact .refl G _ s
    · exact .refl G _ s

theorem WorkOf.retirePart (s : State) (i : LaneId) : WorkOf G (some i) s (s.retirePart i) :=
  .retireFrom i _ s fun _ hs k hk => hs.own i k (List.mem_append_left _ hk)

theorem WorkOf.clearPart (s : State) (i : LaneId) : WorkOf G (some i) s (s.clearPart i) := by
  unfold State.clearPart
  simp only
  split
  · have hset : WorkOf G (some i) s ((s.setLane i { s.lane i with state := .stopped, velocity := 0, brake := none }).raise
        (.stopped i)) := .setLane_raise rfl rfl rfl
    exact (hset.trans (.raise_own _ rfl)).trans (.comesToRest _ i)
  · exact .refl G _ s

theorem WorkOf.drainPart (s : State) (i : LaneId) : WorkOf G (some i) s (s.drainPart i) := by
  unfold State.drainPart
  simp only
  split
  · have hset : WorkOf G (some i) s ((s.setLane i { s.lane i with state := .stopped, velocity := 0, brake := none }).raise
        (.drained i)) := .setLane_raise rfl rfl rfl
    exact (hset.trans (.raise_own _ rfl)).trans (.comesToRest _ i)
  · exact .refl G _ s

/-- The entry of an item that waits in the lane's queue. -/
theorem WorkOf.enterItem (s : State) {k : Nat} (hk : k ∈ (s.lane i).queued) (before : Nat) (it : Item) :
    WorkOf G (some i) s (s.enterItem i before k it) := by
  have hown (_ : G) (hs : s.OwnLists) : s.OwnedBy i k := hs.own i k (List.mem_append_right _ hk)
  refine .of_ownLists ?_
  have hcell (c : Cell) : WorkOf (G ∧ s.OwnLists) (some i) s (s.updItem k fun it => { it with cell := some c }) :=
    .updItem_own s (fun _ => rfl) fun hG hs => hown hG.1 hs
  unfold State.enterItem
  simp only
  refine WorkOf.trans (WorkOf.trans (WorkOf.trans (hcell _) (.setLane fun hG hs m hm => ?_)) (.raise_own _ rfl))
    (.joinView _ k _)
  rcases List.mem_append.mp hm with hm | hm
  · rcases List.mem_append.mp hm with hm | hm
    · exact hs.own i m (List.mem_append_left _ hm)
    · obtain rfl := List.mem_singleton.mp hm
      exact (hcell _).owned hG hG.2 (hown hG.1 hG.2)
  · exact hs.own i m (List.mem_append_right _ (List.mem_of_mem_erase hm))

/-- A queued item of the lane is passed over. -/
theorem WorkOf.skipItem (s : State) {k : Nat} (hk : k ∈ (s.lane i).queued) (it : Item) :
    WorkOf G (some i) s (s.skipItem i k it) := by
  refine .of_ownLists ?_
  have hdrop : WorkOf (G ∧ s.OwnLists) (some i) s (s.updLane i (Lane.dropItem k)) := .dropItem s i k
  exact hdrop.trans (.disposeItem _ (fun hG _ => hdrop.owned hG hG.2 (hG.2.own i k (List.mem_append_right _ hk))) _)

theorem WorkOf.enterItems (i : LaneId) (before fuel : Nat) (r : EntryRun) :
    WorkOf G (some i) r.state (enterItems i before fuel r).state := by
  induction fuel generalizing r with
  | zero => exact .refl G _ _
  | succ fuel ih =>
    unfold Machine.enterItems
    split
    · exact .refl G _ _
    · rename_i slot rest hq
      have hmem : slot ∈ (r.state.lane i).queued := by simp [hq]
      have hraise : WorkOf G (some i) r.state (r.state.raise (.formatFault i)) := .raise_own _ rfl
      split
      · exact .refl G _ _
      · split
        · exact .refl G _ _
        · split
          · simp only
            split
            · exact (hraise.trans (.skipItem (r.state.raise _) hmem _)).trans (ih ⟨_, _, _⟩)
            · exact (hraise.trans (.enterItem (r.state.raise _) hmem before _)).trans (ih ⟨_, _, _⟩)
          · exact (WorkOf.enterItem _ hmem before _).trans (ih ⟨_, _, _⟩)

theorem WorkOf.matchCue (s : State) (i : LaneId) (k : CueId) : WorkOf G (some i) s (s.matchCue i k) := by
  unfold State.matchCue
  simp only
  refine WorkOf.trans (WorkOf.trans ?_ (.raise_own _ rfl)) (.pulses _ _)
  split
  · exact .refl G _ s
  · exact .updLane_same rfl rfl

theorem WorkOf.cueActions (s : State) (i : LaneId) (as : List CueAction) : WorkOf G (some i) s (s.cueActions i as) := by
  have stop (u : State) (m : StopMode) : WorkOf G (some i) u ((u.applyStop 0 i m).getD u) := by
    cases h : u.applyStop 0 i m with
    | none => exact .refl G _ u
    | some v => exact .applyStop h
  have load : WorkOf G (some i) s (if .loadStaged ∈ as then s.updLane i Lane.loadStaged else s) := by
    split
    · exact .updLane_same (by unfold Lane.loadStaged; split <;> rfl) (by unfold Lane.loadStaged; split <;> rfl)
    · exact .refl G _ s
  have acts (u : State) : WorkOf G (some i) u (if .stopNow ∈ as then (u.applyStop 0 i .now).getD u
      else if .stopRamp ∈ as then (u.applyStop 0 i .ramp).getD u else u) := by
    split
    · exact stop u .now
    · split
      · exact stop u .ramp
      · exact .refl G _ u
  exact load.trans (acts _)

theorem WorkOf.cuePart (s : State) (i : LaneId) (v : CueView) : WorkOf G (some i) s (s.cuePart i v) :=
  (WorkOf.foldl (fun s k => .matchCue s i k) _ s).trans (.cueActions _ i _)

theorem WorkOf.entryPart (s : State) (i : LaneId) (before : Nat) : WorkOf G (some i) s (s.entryPart i before).state :=
  .enterItems i before _ { state := s, entered := [], passed := [] }

/-- A moving advance (R5). -/
theorem WorkOf.advance (s : State) (i : LaneId) : WorkOf G (some i) s (s.advance i) := by
  have hparts := ((((WorkOf.stepPart (G := G) s i).trans (.retirePart _ i)).trans (.clearPart _ i)).trans
    (.entryPart _ i (s.lane i).travel)).trans (.drainPart _ i)
  have hcount (u : State) : WorkOf G (some i) u (u.updLane i fun l => { l with runFrames := l.runFrames + 1 }) :=
    .updLane_same rfl rfl
  exact (hparts.trans (.cuePart _ i _)).trans (hcount _)

theorem WorkOf.countFlashes (i : LaneId) (ks : List Nat) (s : State) (hk : G → s.OwnLists → ∀ k ∈ ks, s.OwnedBy i k) :
    WorkOf G (some i) s (ks.foldl (fun s slot => s.updItem slot Item.countFlash) s) := by
  induction ks generalizing G s with
  | nil => exact .refl G _ s
  | cons k ks ih =>
    refine .of_ownLists ?_
    have hw : WorkOf (G ∧ s.OwnLists) (some i) s (s.updItem k Item.countFlash) :=
      .updItem_own s (fun _ => rfl) fun hG hs => hk hG.1 hs k (by simp)
    exact hw.trans (ih _ fun hG _ n hn => hw.owned hG hG.2 (hk hG.1 hG.2 n (by simp [hn])))

theorem WorkOf.flashPart (s : State) (i : LaneId) : WorkOf G (some i) s (s.flashPart i) :=
  .countFlashes i _ s fun _ hs k hk => hs.own i k (List.mem_append_left _ hk)

theorem WorkOf.countDwell (s : State) (i : LaneId) : WorkOf G (some i) s (s.countDwell i) := by
  unfold State.countDwell
  split
  · exact (WorkOf.updLane_same rfl rfl).trans (.raise_own _ rfl)
  · exact .updLane_same rfl rfl

/-- A lane's answer to a frame start is its own work (R5). -/
theorem WorkOf.answerFrame (s : State) (i : LaneId) : WorkOf G (some i) s (s.answerFrame i) := by
  cases hs : (s.lane i).state with
  | off | idle | frozen => rw [answerFrame_of_bare (by simp [hs])]; exact .refl G _ s
  | armed =>
    have hu : WorkOf G (some i) s (s.armedFlash i) := by
      unfold State.armedFlash
      split
      · exact .flashPart s i
      · exact .refl G _ s
    rw [answerFrame_of_armed hs]
    split
    · exact hu.trans (.startArmed _ i)
    · exact hu
  | run | brake => rw [answerFrame_of_moving (by simp [hs])]; exact (WorkOf.flashPart s i).trans (.advance _ i)
  | held => rw [answerFrame_of_held hs]; exact (WorkOf.flashPart s i).trans (.countDwell _ i)
  | stopped => rw [answerFrame_of_stopped hs]; exact .flashPart s i

end

end Sys2Proof.Machine

namespace Sys2Proof.Machine

/-! ### Frame starts around the answer of one lane -/

/-- From s to t lane i was left alone, as far as it is apart: what `WorkOf` says of one lane, and its enabled factors. -/
structure Spared (i : LaneId) (s t : State) : Prop where
  own : s.OwnLists → t.OwnLists
  lane : s.Apart True i → t.lane i = s.lane i
  pending : s.Apart True i → ∀ n < 14,
    t.events.groups[laneGroup i].pending.getLsbD n = s.events.groups[laneGroup i].pending.getLsbD n
  enable : t.events.groups[laneGroup i].enable = s.events.groups[laneGroup i].enable
  items : s.OwnLists → ∀ k it, s.item? k = some it → it.lane = i → ∃ it', t.item? k = some it' ∧ StaleLike it it'

section
variable {s t u : State} {i : LaneId}

theorem Spared.refl (i : LaneId) (s : State) : Spared i s s :=
  ⟨id, fun _ => rfl, fun _ _ _ => rfl, rfl, fun _ _ it h _ => ⟨it, h, .inl rfl⟩⟩

theorem Spared.trans (a : Spared i s t) (b : Spared i t u) : Spared i s u := by
  have apart (h : s.Apart True i) : t.Apart True i := by
    rw [State.Apart, a.lane h]
    exact ⟨h.1, h.2.imp id fun ⟨_, h⟩ => ⟨trivial, a.own h⟩⟩
  refine ⟨b.own ∘ a.own, fun h => (b.lane (apart h)).trans (a.lane h),
    fun h n hn => (b.pending (apart h) n hn).trans (a.pending h n hn), b.enable.trans a.enable, fun h k it hk hi => ?_⟩
  obtain ⟨it', hk', e'⟩ := a.items h k it hk hi
  obtain ⟨it'', hk'', e''⟩ := b.items (a.own h) k it' hk' (e'.lane.trans hi)
  exact ⟨it'', hk'', e'.trans e''⟩

theorem WorkOf.spared {j : Option LaneId} (w : WorkOf True j s t) (hj : j ≠ some i)
    (he : t.events.groups[laneGroup i].enable = s.events.groups[laneGroup i].enable) : Spared i s t :=
  ⟨w.own trivial, w.lane i hj, w.pending i hj, he, w.items i hj trivial⟩

theorem Spared.apart (w : Spared i s t) (h : s.Apart True i) : t.Apart True i := by
  rw [State.Apart, w.lane h]
  exact ⟨h.1, h.2.imp id fun ⟨_, h⟩ => ⟨trivial, w.own h⟩⟩

/-- An act of a frame start that freezes nothing spares the lanes it does not reach. -/
theorem Spared.frameAct (s : State) {a : FrameAct} (h : a ≠ .lane i) : Spared i s (s.frameAct false a) := by
  have he := ((LaneWork.frameAct false s a).enables (laneGroup i)).1
  cases a with
  | lane j => exact (WorkOf.answerFrame s j).spared (fun e => h (congrArg FrameAct.lane (Option.some.inj e))) he
  | symbols => exact WorkOf.spared (j := none) (.foldl .checkSymbol _ s) (by simp) he
  | freeze j => exact .refl i s

theorem Spared.frameActs (as : FrameOrder) (s : State) (h : .lane i ∉ as) :
    Spared i s (as.foldl (State.frameAct false) s) := by
  induction as generalizing s with
  | nil => exact .refl i s
  | cons a as ih =>
    obtain ⟨ha, has⟩ := not_or.mp (mt List.mem_cons.mpr h)
    exact (Spared.frameAct s (Ne.symm ha)).trans (ih _ has)

/-- The clock moves and FRAME is raised before any lane answers (R130). -/
theorem Spared.frameBegins (s : State) (c : FrameClock) : Spared i s (State.raise { s with clock := c } .frame) := by
  have hgroup : ∀ i, Factor.frame.group ≠ laneGroup i := by decide
  have hclock : WorkOf True none s { s with clock := c } := .of_same rfl rfl rfl
  exact (hclock.trans (.raise_other _ (.inl hgroup))).spared (by simp) (State.raise_enable { s with clock := c } .frame _)

/-- The Compositor answers last. -/
theorem Spared.compositorFrame (s : State) : Spared i s s.compositorFrame := by
  have hgroup : ∀ i, Factor.overrun.group ≠ laneGroup i := by decide
  have hover : WorkOf True none s (s.raise .overrun) := .raise_other _ (.inl hgroup)
  have he := s.raise_enable .overrun (laneGroup i)
  unfold State.compositorFrame
  split
  · exact WorkOf.spared (j := none) (.of_same rfl rfl rfl) (by simp) rfl
  · simp only
    split
    · exact hover.spared (by simp) he
    · exact WorkOf.spared (hover.trans (.of_same rfl rfl rfl)) (by simp) he
  · exact .refl i s

/-- A completed order names every act it began with and every act of the default order, each once. -/
theorem foldl_once (as acc : FrameOrder) (h : acc.Nodup) :
    (as.foldl (fun acc a => if a ∈ acc then acc else acc ++ [a]) acc).Nodup ∧
      ∀ a, a ∈ as.foldl (fun acc a => if a ∈ acc then acc else acc ++ [a]) acc ↔ a ∈ acc ∨ a ∈ as := by
  induction as generalizing acc with
  | nil => exact ⟨h, fun a => by simp⟩
  | cons b as ih =>
    rw [List.foldl_cons]
    split
    · rename_i hb
      obtain ⟨h1, h2⟩ := ih acc h
      refine ⟨h1, fun a => (h2 a).trans ?_⟩
      rw [List.mem_cons]
      constructor
      · exact fun h => h.imp id .inr
      · rintro (h | rfl | h)
        · exact .inl h
        · exact .inl hb
        · exact .inr h
    · rename_i hb
      obtain ⟨h1, h2⟩ := ih (acc ++ [b]) (List.nodup_append.mpr ⟨h, List.nodup_singleton b, fun x hx y hy e => by
        rw [List.mem_singleton.mp hy] at e; exact hb (e ▸ hx)⟩)
      refine ⟨h1, fun a => (h2 a).trans ?_⟩
      rw [List.mem_append, List.mem_singleton, List.mem_cons, or_assoc]

theorem lane_mem_defaultOrder (i : LaneId) : FrameAct.lane i ∈ defaultOrder := by revert i; decide

/-- In a completed order lane i answers once. -/
theorem completeOrder_split (order : FrameOrder) (i : LaneId) :
    ∃ before after, completeOrder order = before ++ .lane i :: after ∧ .lane i ∉ before ∧ .lane i ∉ after := by
  obtain ⟨hnodup, hmem⟩ := foldl_once (order ++ defaultOrder) [] List.nodup_nil
  have hi : FrameAct.lane i ∈ completeOrder order :=
    (hmem _).mpr (.inr (List.mem_append_right _ (lane_mem_defaultOrder i)))
  obtain ⟨before, after, e⟩ := List.append_of_mem hi
  have hsplit : (before ++ .lane i :: after).Nodup := e ▸ hnodup
  rw [List.nodup_append, List.nodup_cons] at hsplit
  obtain ⟨-, ⟨hafter, -⟩, hbefore⟩ := hsplit
  exact ⟨before, after, e, fun h => hbefore _ h _ (by simp) rfl, hafter⟩

/-- A frame start that freezes nothing: what comes before lane i answers spares it, and so does what comes after. -/
theorem frameStart_around (s : State) (order : FrameOrder) (instant : Nat) (i : LaneId)
    (hf : s.compositor.state = .composing → s.compositor.policy = .repeatFrame) :
    ∃ u, Spared i s u ∧ Spared i (u.answerFrame i) (s.frameStart order instant) := by
  have hfreeze : s.compositor.freezes = false := by
    by_cases hc : s.compositor.state = .composing
    · simp [Compositor.freezes, hf hc]
    · simp [Compositor.freezes, hc]
  obtain ⟨before, after, e, hbefore, hafter⟩ := completeOrder_split order i
  refine ⟨_, (Spared.frameBegins s { s.clock with now := instant, counter := s.clock.counter + 1, origin := instant }).trans
    (Spared.frameActs before _ hbefore), ?_⟩
  unfold State.frameStart
  simp only [State.raise_compositor, hfreeze, e, List.foldl_append, List.foldl_cons]
  exact (Spared.frameActs after _ hafter).trans (.compositorFrame _)

end

/-! ### The flash countdown (R5) -/

section
variable {s : State} {i : LaneId}

theorem countFlashes_item (ks : List Nat) (hk : ks.Nodup) (s : State) (n : Nat) :
    (ks.foldl (fun s slot => s.updItem slot Item.countFlash) s).item? n =
      (s.item? n).map fun it => if n ∈ ks then it.countFlash else it := by
  induction ks generalizing s with
  | nil => simp
  | cons k ks ih =>
    obtain ⟨hnot, hnodup⟩ := List.nodup_cons.mp hk
    rw [List.foldl_cons, ih hnodup, State.item?_updItem]
    by_cases e : n = k
    · subst e
      cases s.item? n <;> simp [hnot]
    · simp [e]

/-- Each visible cell of the lane counts its flash once. -/
theorem flashPart_item (hv : (s.lane i).visible.Nodup) (n : Nat) :
    (s.flashPart i).item? n = (s.item? n).map fun it => if n ∈ (s.lane i).visible then it.countFlash else it :=
  countFlashes_item _ hv s n

theorem State.flashPart_lane (s : State) (i j : LaneId) : (s.flashPart i).lane j = s.lane j :=
  State.lane_congr (s.flashPart_lanes i) j

theorem flashPart_of_no_cell (hv : (s.lane i).visible = []) : s.flashPart i = s := by
  unfold State.flashPart; rw [hv]; rfl

theorem countFlashes_eq (ks : List Nat) (s : State) :
    ks.foldl (fun s slot => s.updItem slot Item.countFlash) s =
      { s with pool := { s.pool with
          items := (ks.foldl (fun s slot => s.updItem slot Item.countFlash) s).pool.items } } := by
  induction ks generalizing s with
  | nil => rfl
  | cons k ks ih => rw [List.foldl_cons, ih]; rfl

/-- The countdown changes items alone. -/
theorem flashPart_eq (s : State) (i : LaneId) :
    s.flashPart i = { s with pool := { s.pool with items := (s.flashPart i).pool.items } } := countFlashes_eq _ s

@[simp] theorem State.flashPart_events (s : State) (i : LaneId) : (s.flashPart i).events = s.events := by
  rw [flashPart_eq]

/-! ### A ramp over nothing (R6, R23, R42) -/

/-- A lane that ran one frame with no target pending. -/
def Lane.ran (l : Lane) : Lane :=
  let v := if l.velocity < l.cruise then min (l.velocity + l.accel) l.cruise else max (l.velocity - l.accel) l.cruise
  { l with
    state := .run, velocity := v, travel := min (l.travel + v) (2 ^ 48 - 1), brake := none
    runFrames := l.runFrames + 1 }

/-- A lane in RUN, or braking toward a target that has gone, with nothing visible, no target and no armed cue. -/
structure Lane.Free (l : Lane) : Prop where
  moves : l.state = .run ∨ l.state = .brake ∧ l.brake ≠ some .ramp
  visible : l.visible = []
  targets : l.targets = []
  cues : ∀ k : CueId, l.cues[k].armed = false

theorem Lane.Free.moving {l : Lane} (h : l.Free) : l.state = .run ∨ l.state = .brake := h.moves.imp id And.left

theorem Lane.Free.step {l : Lane} (h : l.Free) : stepLane l = freeStep l := by
  have hstep : ¬ (l.state = .brake ∧ l.brake = some .ramp) := by
    rintro ⟨hs, hb⟩
    rcases h.moves with e | ⟨-, e⟩
    · rw [e] at hs; cases hs
    · exact e hb
  simp only [stepLane, if_neg hstep, h.targets]

/-- The step of such a lane, and its retirement, change its velocity and travel alone. -/
theorem Lane.Free.parts (h : (s.lane i).Free) :
    (s.stepPart i).retirePart i = s.setLane i (freeStep (s.lane i)).lane := by
  have hstep : s.stepPart i = s.setLane i (freeStep (s.lane i)).lane := by
    unfold State.stepPart
    simp only [h.step]
    rfl
  have hvis : (freeStep (s.lane i)).lane.visible = [] := h.visible
  rw [hstep, State.retirePart, State.lane_setLane_same, hvis]
  rfl

/-- No entry: the queue is empty or its front may not enter. -/
theorem enterItems_none {before fuel : Nat} {r : EntryRun}
    (h : (r.state.lane i).queued = [] ∨ (r.state.lane i).mayEnter = false) : enterItems i before fuel r = r := by
  cases fuel with
  | zero => rfl
  | succ fuel =>
    unfold enterItems
    split
    · rfl
    · rename_i hq
      have hm : (r.state.lane i).mayEnter = false := h.resolve_left (by simp [hq])
      simp [hm]

/-- No cue is armed: the evaluation does nothing. -/
theorem cuePart_of_disarmed (h : ∀ k : CueId, (s.lane i).cues[k].armed = false) (v : CueView) : s.cuePart i v = s := by
  have hnone : v.matching (s.lane i) = [] :=
    List.filter_eq_nil_iff.mpr fun k _ => by rw [CueView.hits, h k]; simp
  unfold State.cuePart
  simp only [hnone]
  rfl

/-- The advance of such a lane, when its clear and drain parts are known. -/
theorem Lane.Free.advance (h : (s.lane i).Free) {u w : State}
    (hu : (s.setLane i (freeStep (s.lane i)).lane).clearPart i = u)
    (hq : (u.lane i).queued = [] ∨ (u.lane i).mayEnter = false) (hw : u.drainPart i = w)
    (hc : (w.lane i).cues = (s.lane i).cues) :
    s.advance i = w.updLane i fun l => { l with runFrames := l.runFrames + 1 } := by
  unfold State.advance
  simp only [h.parts, hu, State.entryPart, enterItems_none (r := { state := u, entered := [], passed := [] }) hq, hw]
  rw [cuePart_of_disarmed fun k => by rw [hc]; exact h.cues k]

theorem Lane.Free.answerFrame (h : (s.lane i).Free) : s.answerFrame i = s.advance i := by
  rw [answerFrame_of_moving h.moving, flashPart_of_no_cell h.visible]

/-- The lane after its free step, counted as run, is `ran`. -/
theorem freeStep_ran (l : Lane) :
    ({ (freeStep l).lane with runFrames := l.runFrames + 1 } : Lane) = l.ran := by
  simp only [freeStep, Lane.ran, rampedVelocity_eq]
  rfl

/-- It runs on: on-empty RUN_BLANK, its clearing flag clear, its queue empty. -/
theorem Lane.Free.runs_on (h : (s.lane i).Free) (hc : (s.lane i).clearing = false) (hq : (s.lane i).queued = [])
    (he : (s.lane i).setup.onEmpty = .runBlank) : (s.answerFrame i).lane i = (s.lane i).ran := by
  have hclear : (s.setLane i (freeStep (s.lane i)).lane).clearPart i = s.setLane i (freeStep (s.lane i)).lane := by
    simp [State.clearPart, freeStep, hc]
  have hdrain : (s.setLane i (freeStep (s.lane i)).lane).drainPart i = s.setLane i (freeStep (s.lane i)).lane := by
    simp [State.drainPart, freeStep, he]
  rw [h.answerFrame, h.advance hclear (.inl (by simp [freeStep, hq])) hdrain (by simp [freeStep]), State.lane_updLane_same,
    State.lane_setLane_same, ← freeStep_ran]
  rfl

/-- Lane i stops, raises two factors of its own and comes to rest. -/
def State.stopsWith (s : State) (i : LaneId) (l : Lane) (f g : Factor) : State :=
  (((s.setLane i { l with state := .stopped, velocity := 0, brake := none }).raise f).raise g).comesToRest 0 i

/-- A coming to rest of lane i, which is then not ARMED, starts other lanes at most. -/
theorem stopsWith_lane {l : Lane} {f g : Factor} (ha : l.visible = [] ∧ l.queued = [] ∨ s.OwnLists)
    (hv : l.visible = (s.lane i).visible) (hq : l.queued = (s.lane i).queued) (hf : f.group = laneGroup i)
    (hg : g.group = laneGroup i) :
    (s.stopsWith i l f g).lane i = { l with state := .stopped, velocity := 0, brake := none } ∧
    ∀ n < 14, (s.stopsWith i l f g).events.groups[laneGroup i].pending.getLsbD n = true ↔
      s.events.groups[laneGroup i].pending.getLsbD n = true ∨
        (n = f.place ∨ n = g.place) ∧ (13 ≤ n ∨ s.events.groups[laneGroup i].enable.getLsbD n = true) := by
  have hset : WorkOf True (some i) s (((s.setLane i { l with state := .stopped, velocity := 0, brake := none }).raise f).raise g) :=
    (WorkOf.setLane_raise (l := { l with state := .stopped, velocity := 0, brake := none }) hf hv hq).trans
      (.raise_own _ hg)
  have hlane : ((((s.setLane i { l with state := .stopped, velocity := 0, brake := none }).raise f).raise g).lane i) =
      { l with state := .stopped, velocity := 0, brake := none } := by simp
  have hapart : State.Apart True (((s.setLane i { l with state := .stopped, velocity := 0, brake := none }).raise f).raise g) i := by
    rw [State.Apart, hlane]
    exact ⟨by simp, ha.imp id fun h => ⟨trivial, hset.own trivial h⟩⟩
  have hrest := WorkOf.comesToRest (G := True) (j := none)
    (((s.setLane i { l with state := .stopped, velocity := 0, brake := none }).raise f).raise g) i
  refine ⟨(hrest.lane i (by simp) hapart).trans hlane, fun n hn => ?_⟩
  unfold State.stopsWith
  rw [hrest.pending i (by simp) hapart n hn, State.raise_pending_getLsbD _ hg (by omega), State.raise_enable,
    State.raise_pending_getLsbD _ hf (by omega)]
  simp only [State.setLane_events]
  tauto

/-- Its CLEAR stop ends (R23), or it drains (R42): STOPPED, with STOPPED and DRAINED raised. -/
theorem Lane.Free.stops (h : (s.lane i).Free)
    (hc : (s.lane i).clearing = true ∧ s.OwnLists ∨
      (s.lane i).clearing = false ∧ (s.lane i).queued = [] ∧ (s.lane i).setup.onEmpty = .stop) :
    (s.answerFrame i).lane i = { (s.lane i).ran with state := .stopped, velocity := 0 } ∧
    ∀ n, n = 1 ∨ n = 2 → ((s.answerFrame i).events.groups[laneGroup i].pending.getLsbD n = true ↔
      s.events.groups[laneGroup i].pending.getLsbD n = true ∨
        s.events.groups[laneGroup i].enable.getLsbD n = true) := by
  have finish {f g : Factor} (hf : f.group = laneGroup i) (hg : g.group = laneGroup i)
      (hfg : ∀ n, n = 1 ∨ n = 2 → n = f.place ∨ n = g.place)
      (ha : (s.lane i).visible = [] ∧ (s.lane i).queued = [] ∨ s.OwnLists)
      (he : s.answerFrame i = (s.stopsWith i (freeStep (s.lane i)).lane f g).updLane i
        fun l => { l with runFrames := l.runFrames + 1 }) :
      (s.answerFrame i).lane i = { (s.lane i).ran with state := .stopped, velocity := 0 } ∧
      ∀ n, n = 1 ∨ n = 2 → ((s.answerFrame i).events.groups[laneGroup i].pending.getLsbD n = true ↔
        s.events.groups[laneGroup i].pending.getLsbD n = true ∨
          s.events.groups[laneGroup i].enable.getLsbD n = true) := by
    obtain ⟨h1, h2⟩ := stopsWith_lane (l := (freeStep (s.lane i)).lane) ha rfl rfl hf hg
    rw [he]
    refine ⟨?_, fun n hn => ?_⟩
    · rw [State.lane_updLane_same, h1, ← freeStep_ran]
      rfl
    · rw [State.updLane_events, h2 n (by omega), and_iff_right (hfg n hn)]
      have h13 : ¬ 13 ≤ n := by omega
      simp only [h13, false_or]
  rcases hc with ⟨hc, hs⟩ | ⟨hc, hq, he⟩
  · refine finish (f := .stopped i) (g := .drained i) rfl rfl (fun n hn => by simpa [Factor.place] using hn) (.inr hs) ?_
    have hclear : (s.setLane i (freeStep (s.lane i)).lane).clearPart i =
        s.stopsWith i (freeStep (s.lane i)).lane (.stopped i) (.drained i) := by
      simp [State.clearPart, State.stopsWith, freeStep, Lane.isMoving, hc, h.visible]
    obtain ⟨h1, -⟩ := stopsWith_lane (l := (freeStep (s.lane i)).lane) (f := .stopped i) (g := .drained i) (.inr hs) rfl
      rfl rfl rfl
    rw [h.answerFrame]
    refine h.advance hclear (.inr ?_) ?_ ?_
    · rw [h1]; simp [Lane.mayEnter, freeStep, hc]
    · simp [State.drainPart, h1]
    · rw [h1]; rfl
  · refine finish (f := .drained i) (g := .stopped i) rfl rfl (fun n hn => by simpa [Factor.place, or_comm] using hn)
      (.inl ⟨h.visible, hq⟩) ?_
    have hclear : (s.setLane i (freeStep (s.lane i)).lane).clearPart i = s.setLane i (freeStep (s.lane i)).lane := by
      simp [State.clearPart, freeStep, hc]
    have hdrain : (s.setLane i (freeStep (s.lane i)).lane).drainPart i =
        s.stopsWith i (freeStep (s.lane i)).lane (.drained i) (.stopped i) := by
      simp [State.drainPart, State.stopsWith, freeStep, Lane.isEmpty, he, h.visible, hq]
    obtain ⟨h1, -⟩ := stopsWith_lane (l := (freeStep (s.lane i)).lane) (f := .drained i) (g := .stopped i)
      (.inl ⟨h.visible, hq⟩) rfl rfl rfl rfl
    rw [h.answerFrame]
    refine h.advance hclear (.inl (by simp [freeStep, hq])) hdrain ?_
    rw [h1]; rfl

end

end Sys2Proof.Machine

namespace Sys2Proof.Machine

section
variable {s t u : State} {i : LaneId}

/-! ### The cells of a lane that stands still (R5, R107) -/

/-- An item with its cell's forced-stale mark set to a value. -/
def Item.withStale (it : Item) (c : Cell) (stale : Bool) : Item :=
  { it with cell := some { c with forcedStale := stale } }

theorem StaleLike.withStale {it it' : Item} {c : Cell} {b : Bool} (h : StaleLike (it.withStale c b) it') :
    ∃ b', (b = true → b' = true) ∧ it' = it.withStale c b' := by
  rcases h with rfl | rfl
  · exact ⟨b, id, rfl⟩
  · exact ⟨true, fun _ => rfl, rfl⟩

theorem Item.withStale_self {it : Item} {c : Cell} (h : it.cell = some c) : it = it.withStale c c.forcedStale := by
  cases it; cases h; rfl

/-- A cell with its flash lowered by 1, to 0 at the least. -/
def Cell.counted (c : Cell) : Cell := { c with flash := c.flash - 1 }

theorem Item.countFlash_withStale (it : Item) (c : Cell) (b : Bool) :
    (it.withStale c b).countFlash = it.withStale c.counted b := rfl

/-- An act of lane i that only counts the flash of its visible cells, or leaves all items, answers a frame start between
acts of others that mark them forced-stale at most. -/
theorem standing_cell {v : State} (h : s.ListsAgree) (hsu : Spared i s u) (hvt : Spared i v t) (hv : u.OwnLists → v.OwnLists)
    {slot : Nat} {it : Item} {c : Cell} {f : Cell → Cell} (hslot : slot ∈ (s.lane i).visible)
    (hf : ∀ (it : Item) (b : Bool), u.item? slot = some (it.withStale c b) → v.item? slot = some (it.withStale (f c) b))
    (hit : s.item? slot = some it) (hc : it.cell = some c) :
    ∃ stale, (c.forcedStale = true → stale = true) ∧ t.item? slot = some (it.withStale (f c) stale) := by
  have hlane : it.lane = i := by
    obtain ⟨it', hit', hlane, -⟩ := h.visible i slot hslot
    cases hit.symm.trans hit'
    exact hlane
  obtain ⟨it1, hit1, e1⟩ := hsu.items h.ownLists slot it hit hlane
  rw [Item.withStale_self hc] at e1
  obtain ⟨b1, hb1, rfl⟩ := e1.withStale
  obtain ⟨it2, hit2, e2⟩ := hvt.items (hv (hsu.own h.ownLists)) slot _ (hf it b1 hit1) hlane
  obtain ⟨b2, hb2, rfl⟩ := e2.withStale
  exact ⟨b2, hb2 ∘ hb1, hit2⟩

theorem flashPart_counts (hn : (u.lane i).visible.Nodup) {slot : Nat} (hslot : slot ∈ (u.lane i).visible) {it : Item}
    {c : Cell} {b : Bool} (h : u.item? slot = some (it.withStale c b)) :
    (u.flashPart i).item? slot = some (it.withStale c.counted b) := by
  rw [flashPart_item hn, h, Option.map_some, if_pos hslot, Item.countFlash_withStale]

/-! ### What lane i's answer does, carried to the end of the frame start -/

theorem State.ListsAgree.apart (h : s.ListsAgree) (hs : (s.lane i).state ≠ .armed) : s.Apart True i :=
  ⟨hs, .inr ⟨trivial, h.ownLists⟩⟩

/-- A lane that does not become ARMED in its answer keeps what it answered. -/
theorem answered_lane {l : Lane} (hsu : Spared i s u) (hut : Spared i (u.answerFrame i) t)
    (ha : (u.answerFrame i).lane i = l) (hl : l.state ≠ .armed)
    (hlists : l.visible = [] ∧ l.queued = [] ∨ s.OwnLists) :
    t.lane i = l ∧ ∀ n < 14, t.events.groups[laneGroup i].pending.getLsbD n =
      (u.answerFrame i).events.groups[laneGroup i].pending.getLsbD n := by
  have hapart : (u.answerFrame i).Apart True i := by
    rw [State.Apart, ha]
    exact ⟨hl, hlists.imp id fun h => ⟨trivial, (WorkOf.answerFrame (G := True) u i).own trivial (hsu.own h)⟩⟩
  exact ⟨(hut.lane hapart).trans ha, hut.pending hapart⟩

/-- The factors of lane i that its answer raised are those it raised from s. -/
theorem answered_raised (hs : s.Apart True i) (hsu : Spared i s u) {n : Nat} (hn : n < 14)
    (ht : t.events.groups[laneGroup i].pending.getLsbD n =
      (u.answerFrame i).events.groups[laneGroup i].pending.getLsbD n)
    (ha : (u.answerFrame i).events.groups[laneGroup i].pending.getLsbD n = true ↔
      u.events.groups[laneGroup i].pending.getLsbD n = true ∨ u.events.groups[laneGroup i].enable.getLsbD n = true) :
    t.events.groups[laneGroup i].pending.getLsbD n = true ↔
      s.events.groups[laneGroup i].pending.getLsbD n = true ∨ s.events.groups[laneGroup i].enable.getLsbD n = true := by
  rw [ht, ha, hsu.pending hs n hn, hsu.enable]

/-- A lane that a frame start passes over: OFF, IDLE, FROZEN or STOPPED (R5). -/
theorem answerFrame_lane_of_still (hs : (u.lane i).state = .off ∨ (u.lane i).state = .idle ∨ (u.lane i).state = .frozen ∨
    (u.lane i).state = .stopped) : (u.answerFrame i).lane i = u.lane i := by
  rcases hs with hs | hs | hs | hs
  · rw [answerFrame_of_bare (by simp [hs])]
  · rw [answerFrame_of_bare (by simp [hs])]
  · rw [answerFrame_of_bare (by simp [hs])]
  · rw [answerFrame_of_stopped hs, State.flashPart_lane]

/-- A held lane with more frames to dwell counts one (R53). -/
theorem answerFrame_of_dwelling (hs : (u.lane i).state = .held) (hd : 1 < (u.lane i).dwell) :
    u.answerFrame i = (u.flashPart i).updLane i fun l => { l with dwell := l.dwell - 1 } := by
  rw [answerFrame_of_held hs, State.countDwell, State.flashPart_lane, if_neg (by omega)]

/-- The last frame of a dwell ends the hold (R53). -/
theorem answerFrame_of_dwelled (hs : (u.lane i).state = .held) (hd : (u.lane i).dwell ≤ 1) :
    u.answerFrame i = (u.flashPart i).endHold i := by
  rw [answerFrame_of_held hs, State.countDwell, State.flashPart_lane, if_pos hd]

theorem answerFrame_item_of_held (hs : (u.lane i).state = .held) (slot : Nat) :
    (u.answerFrame i).item? slot = (u.flashPart i).item? slot := by
  rcases Nat.lt_or_ge 1 (u.lane i).dwell with hd | hd
  · rw [answerFrame_of_dwelling hs hd]; rfl
  · rw [answerFrame_of_dwelled hs hd]; rfl

end

/-! ### The parts of O57 -/

section
variable {s : State} {order : FrameOrder} {instant : Nat} {i : LaneId}

/-- A free lane runs on. -/
theorem frameStart_runs_on (hf : s.compositor.state = .composing → s.compositor.policy = .repeatFrame)
    (h : (s.lane i).Free) (hc : (s.lane i).clearing = false) (hq : (s.lane i).queued = [])
    (he : (s.lane i).setup.onEmpty = .runBlank) : (s.frameStart order instant).lane i = (s.lane i).ran := by
  obtain ⟨u, hsu, hut⟩ := frameStart_around s order instant i hf
  have harm : (s.lane i).state ≠ .armed := by rcases h.moving with e | e <;> simp [e]
  have hs : s.Apart True i := ⟨harm, .inl ⟨h.visible, hq⟩⟩
  have hu := hsu.lane hs
  have ha := Lane.Free.runs_on (s := u) (i := i) (hu ▸ h) (hu ▸ hc) (hu ▸ hq) (hu ▸ he)
  rw [hu] at ha
  exact (answered_lane hsu hut ha (by simp [Lane.ran]) (.inl ⟨h.visible, hq⟩)).1

/-- A free lane ends its CLEAR stop or drains. -/
theorem frameStart_stops (hf : s.compositor.state = .composing → s.compositor.policy = .repeatFrame)
    (hl : s.ListsAgree) (h : (s.lane i).Free)
    (hc : (s.lane i).clearing = true ∨
      (s.lane i).clearing = false ∧ (s.lane i).queued = [] ∧ (s.lane i).setup.onEmpty = .stop) :
    (s.frameStart order instant).lane i = { (s.lane i).ran with state := .stopped, velocity := 0 } ∧
    ∀ n, n = 1 ∨ n = 2 → ((s.frameStart order instant).events.groups[laneGroup i].pending.getLsbD n = true ↔
      s.events.groups[laneGroup i].pending.getLsbD n = true ∨
        s.events.groups[laneGroup i].enable.getLsbD n = true) := by
  obtain ⟨u, hsu, hut⟩ := frameStart_around s order instant i hf
  have hs : s.Apart True i := hl.apart (by rcases h.moving with e | e <;> simp [e])
  have hu := hsu.lane hs
  obtain ⟨ha, hp⟩ := Lane.Free.stops (s := u) (i := i) (hu ▸ h) (by
    rw [hu]; exact hc.imp (fun hc => ⟨hc, hsu.own hl.ownLists⟩) id)
  rw [hu] at ha
  obtain ⟨h1, h2⟩ := answered_lane hsu hut ha (by simp) (.inr hl.ownLists)
  exact ⟨h1, fun n hn => answered_raised hs hsu (by omega) (h2 n (by omega)) (hp n hn)⟩

/-- A lane the frame start passes over. -/
theorem frameStart_still (hf : s.compositor.state = .composing → s.compositor.policy = .repeatFrame)
    (hl : s.ListsAgree) (h : (s.lane i).state = .off ∨ (s.lane i).state = .idle ∨ (s.lane i).state = .frozen ∨
      (s.lane i).state = .stopped) : (s.frameStart order instant).lane i = s.lane i := by
  obtain ⟨u, hsu, hut⟩ := frameStart_around s order instant i hf
  have hs : s.Apart True i := hl.apart (by rcases h with e | e | e | e <;> simp [e])
  have hu := hsu.lane hs
  have ha : (u.answerFrame i).lane i = s.lane i := (answerFrame_lane_of_still (hu ▸ h)).trans hu
  exact (answered_lane hsu hut ha hs.1 (.inr hl.ownLists)).1

/-- A held lane counts its dwell. -/
theorem frameStart_dwells (hf : s.compositor.state = .composing → s.compositor.policy = .repeatFrame)
    (hl : s.ListsAgree) (h : (s.lane i).state = .held) (hd : 1 < (s.lane i).dwell) :
    (s.frameStart order instant).lane i = { s.lane i with dwell := (s.lane i).dwell - 1 } ∧
    (s.frameStart order instant).events.groups[laneGroup i].pending.getLsbD 4 =
      s.events.groups[laneGroup i].pending.getLsbD 4 := by
  obtain ⟨u, hsu, hut⟩ := frameStart_around s order instant i hf
  have hs : s.Apart True i := hl.apart (by simp [h])
  have hu := hsu.lane hs
  have he := answerFrame_of_dwelling (u := u) (i := i) (hu ▸ h) (hu ▸ hd)
  have ha : (u.answerFrame i).lane i = { s.lane i with dwell := (s.lane i).dwell - 1 } := by
    rw [he, State.lane_updLane_same, State.flashPart_lane, hu]
  obtain ⟨h1, h2⟩ := answered_lane hsu hut ha (by simp [h]) (.inr hl.ownLists)
  refine ⟨h1, (h2 4 (by omega)).trans ?_⟩
  rw [he, State.updLane_events, State.flashPart_events, hsu.pending hs 4 (by omega)]

/-- A held lane ends its hold. -/
theorem frameStart_releases (hf : s.compositor.state = .composing → s.compositor.policy = .repeatFrame)
    (hl : s.ListsAgree) (h : (s.lane i).state = .held) (hd : (s.lane i).dwell ≤ 1) :
    (s.frameStart order instant).lane i = { s.lane i with state := .run, velocity := 0, brake := none, dwell := 0 } ∧
    ((s.frameStart order instant).events.groups[laneGroup i].pending.getLsbD 4 = true ↔
      s.events.groups[laneGroup i].pending.getLsbD 4 = true ∨
        s.events.groups[laneGroup i].enable.getLsbD 4 = true) := by
  obtain ⟨u, hsu, hut⟩ := frameStart_around s order instant i hf
  have hs : s.Apart True i := hl.apart (by simp [h])
  have hu := hsu.lane hs
  have he := answerFrame_of_dwelled (u := u) (i := i) (hu ▸ h) (hu ▸ hd)
  have ha : (u.answerFrame i).lane i = { s.lane i with state := .run, velocity := 0, brake := none, dwell := 0 } := by
    rw [he, State.endHold, State.raise_lane, State.lane_updLane_same, State.flashPart_lane, hu]
  obtain ⟨h1, h2⟩ := answered_lane hsu hut ha (by simp) (.inr hl.ownLists)
  refine ⟨h1, answered_raised hs hsu (by omega) (h2 4 (by omega)) ?_⟩
  have hraise := State.raise_pending_getLsbD (i := i)
    ((u.flashPart i).updLane i fun l => { l with state := .run, velocity := 0, brake := none, dwell := 0 })
    (f := .holdReleased i) rfl (n := 4) (by omega)
  rw [he, State.endHold, hraise]
  simp [Factor.place]

/-- The cells of a lane that stands still. -/
theorem frameStart_cells (hf : s.compositor.state = .composing → s.compositor.policy = .repeatFrame)
    (hl : s.ListsAgree) (h : (s.lane i).state = .held ∨ (s.lane i).state = .stopped ∨ (s.lane i).state = .frozen)
    {slot : Nat} {it : Item} {c : Cell} (hslot : slot ∈ (s.lane i).visible) (hit : s.item? slot = some it)
    (hc : it.cell = some c) :
    ∃ stale, (c.forcedStale = true → stale = true) ∧ (s.frameStart order instant).item? slot =
      some (it.withStale (if (s.lane i).state = .frozen then c else c.counted) stale) := by
  obtain ⟨u, hsu, hut⟩ := frameStart_around s order instant i hf
  have hs : s.Apart True i := hl.apart (by rcases h with e | e | e <;> simp [e])
  have hu := hsu.lane hs
  have hown : u.OwnLists → (u.answerFrame i).OwnLists := (WorkOf.answerFrame (G := True) u i).own trivial
  have hnodup : (u.lane i).visible.Nodup := hu ▸ (List.nodup_append.mp (hl.once i)).1
  refine standing_cell (f := fun c => if (s.lane i).state = .frozen then c else c.counted) hl hsu hut hown hslot
    (fun it b hb => ?_) hit hc
  rcases h with e | e | e
  · have hne : (s.lane i).state ≠ .frozen := by simp [e]
    rw [answerFrame_item_of_held (hu ▸ e), if_neg hne]
    exact flashPart_counts hnodup (hu ▸ hslot) hb
  · have hne : (s.lane i).state ≠ .frozen := by simp [e]
    rw [answerFrame_of_stopped (hu ▸ e), if_neg hne]
    exact flashPart_counts hnodup (hu ▸ hslot) hb
  · rw [answerFrame_of_bare (by simp [hu, e]), if_pos e]
    exact hb

/-- The answer of a lane ARMED: its countdown when it came from STOPPED, and its start when the mark is set (R74). -/
theorem armed_answer (hl : s.ListsAgree) {a : Arm} (hs : (s.lane i).state = .armed) (ha : (s.lane i).arm = some a) :
    ∃ u : State, u = { s with pool := { s.pool with items := u.pool.items } } ∧
      (∀ slot, u.item? slot = (s.item? slot).map fun it =>
        if a.returns = .stopped ∧ slot ∈ (s.lane i).visible then it.countFlash else it) ∧
      (a.met = false → s.answerFrame i = u) ∧ (a.met = true → exec (.armedStart i) u = .next (s.answerFrame i)) := by
  have hlane : (s.armedFlash i).lane i = s.lane i := State.lane_congr (s.armedFlash_lanes i) i
  have hdue : ((s.armedFlash i).lane i).startDue = a.met := by rw [hlane]; simp [Lane.startDue, hs, ha]
  have hflash : s.armedFlash i = if a.returns = .stopped then s.flashPart i else s := by
    simp [State.armedFlash, ha]
  refine ⟨s.armedFlash i, ?_, fun slot => ?_, fun hm => ?_, fun hm => ?_⟩
  · rw [hflash]
    split
    · exact flashPart_eq s i
    · rfl
  · rw [hflash]
    split
    · rename_i hr
      rw [flashPart_item (List.nodup_append.mp (hl.once i)).1]
      simp only [hr, true_and]
    · rename_i hr
      simp only [hr, false_and, if_false, Option.map_id']
  · rw [answerFrame_of_armed hs, hdue, hm]; rfl
  · rw [answerFrame_of_armed hs, hdue, hm]
    exact congrArg Host.Outcome.next (if_pos (hdue.trans hm))

/-- The answer of a moving lane: the countdown, then the five parts of its advance in their order (R5, R56). -/
theorem moving_answer (hl : s.ListsAgree) (hs : (s.lane i).state = .run ∨ (s.lane i).state = .brake) :
    ∃ u : State, u = { s with pool := { s.pool with items := u.pool.items } } ∧
      (∀ slot, u.item? slot = (s.item? slot).map fun it =>
        if slot ∈ (s.lane i).visible then it.countFlash else it) ∧
      let run := (((u.stepPart i).retirePart i).clearPart i).entryPart i (s.lane i).travel
      let w := run.state.drainPart i
      s.answerFrame i = (w.cuePart i
        { travelBefore := (s.lane i).travel, travelAfter := (w.lane i).travel, entriesBefore := (s.lane i).entries
          entriesAfter := (w.lane i).entries, runBefore := (s.lane i).runFrames, entered := run.entered }).updLane i
            fun m => { m with runFrames := m.runFrames + 1 } := by
  refine ⟨s.flashPart i, flashPart_eq s i, flashPart_item (List.nodup_append.mp (hl.once i)).1, ?_⟩
  rw [answerFrame_of_moving hs, ← State.flashPart_lane s i i]
  rfl

end

/-- Settles O57: each part is the lemma of that name, carried from the lane's own answer to the end of the frame start by
`frameStart_around`. -/
theorem lanesAnswerFrameStarts : Obligations.LanesAnswerFrameStarts := by
  intro s order instant i
  refine ⟨fun hf => ⟨fun hm hc hv hq ht he hcues => frameStart_runs_on hf ⟨hm, hv, ht, hcues⟩ hc hq he, fun hl =>
    ⟨frameStart_still hf hl, frameStart_dwells hf hl, frameStart_releases hf hl,
      fun slot it c h hslot hit hc => frameStart_cells hf hl h hslot hit hc, fun hm hv ht hcues => ?_⟩⟩,
    fun hl => ⟨fun a hs ha => armed_answer hl hs ha, moving_answer hl⟩⟩
  have hfree : (s.lane i).Free := ⟨hm, hv, ht, hcues⟩
  refine ⟨fun hc => ?_, fun hc hq he => ?_⟩
  · obtain ⟨h1, h2⟩ := frameStart_stops (order := order) (instant := instant) hf hl hfree (.inl hc)
    exact ⟨h1, h2 1 (.inl rfl), h2 2 (.inr rfl)⟩
  · obtain ⟨h1, h2⟩ := frameStart_stops (order := order) (instant := instant) hf hl hfree (.inr ⟨hc, hq, he⟩)
    exact ⟨h1, h2 1 (.inl rfl), h2 2 (.inr rfl)⟩

end Sys2Proof.Machine

namespace Sys2Proof.Machine

/-! ### Symbols, texts and refreshes after references and views change (R43, R90, R109, R116) -/

/-- The content is a QUOTE of the symbol in a slot of the table. -/
def Content.quotes (link : Nat) : Content → Bool
  | .quote _ k => decide (link = k)
  | _ => false

/-- The content is the TEXT of an id. -/
def Content.captions (id : Nat) (c : Content) : Bool := decide (c = .text id)

/-- The content is a QUOTE. -/
def Content.isQuote : Content → Bool
  | .quote _ _ => true
  | _ => false

section
variable (s : State) (c : Content) (slot k : Nat)

@[simp] theorem Content.quotes_quote (code : SymCode) (link : Nat) : (Content.quote code link).quotes k = decide (k = link) := rfl
@[simp] theorem Content.quotes_text (id : Nat) : (Content.text id).quotes k = false := rfl
@[simp] theorem Content.quotes_mark (code : Byte) : (Content.mark code).quotes k = false := rfl
@[simp] theorem Content.captions_quote (code : SymCode) (link : Nat) : (Content.quote code link).captions k = false := rfl
@[simp] theorem Content.captions_text (id : Nat) : (Content.text id).captions k = decide (k = id) := by
  simp [Content.captions, eq_comm]
@[simp] theorem Content.captions_mark (code : Byte) : (Content.mark code).captions k = false := rfl
@[simp] theorem Content.isQuote_quote (code : SymCode) (link : Nat) : (Content.quote code link).isQuote = true := rfl
@[simp] theorem Content.isQuote_text (id : Nat) : (Content.text id).isQuote = false := rfl
@[simp] theorem Content.isQuote_mark (code : Byte) : (Content.mark code).isQuote = false := rfl

theorem Content.isQuote_iff : c.isQuote = true ↔ ∃ code link, c = .quote code link := by
  cases c <;> simp

theorem Content.isQuote_of_quotes (h : c.quotes k = true) : c.isQuote = true := by
  cases c <;> simp at h ⊢

/-- A refresh queue and a formatting in flight after the item in a slot left its view (R31, R37, R109). -/
def Formatter.without (f : Formatter) (slot : Nat) : Formatter :=
  { f with
    queue := f.queue.erase slot
    inFlight := f.inFlight.map fun f => if f.item = slot then { f with discarded := true } else f }

theorem State.symbol?_updSymbol_map (f : SymbolRec → SymbolRec) (j : Nat) :
    (s.updSymbol k f).symbol? j = (s.symbol? j).map fun r => if j = k then f r else r := by
  rw [State.symbol?_updSymbol]
  split_ifs with h
  · rw [h]
  · simp

theorem State.text?_updText_map (f : TextRec → TextRec) (j : Nat) :
    (s.updText k f).text? j = (s.text? j).map fun r => if j = k then f r else r := by
  rw [State.text?_updText]
  split_ifs with h
  · rw [h]
  · simp

@[simp] theorem State.symbol?_updText (f : TextRec → TextRec) (j : Nat) : (s.updText k f).symbol? j = s.symbol? j := rfl
@[simp] theorem State.text?_updSymbol (f : SymbolRec → SymbolRec) (j : Nat) : (s.updSymbol k f).text? j = s.text? j := rfl

theorem State.symbol?_addReference : (s.addReference c).symbol? k =
    (s.symbol? k).map fun r => if c.quotes k then { r with refCount := r.refCount + 1 } else r := by
  cases c <;> simp [State.addReference, State.symbol?_updSymbol_map]

theorem State.symbol?_dropReference : (s.dropReference c).symbol? k =
    (s.symbol? k).map fun r => if c.quotes k then { r with refCount := r.refCount - 1 } else r := by
  cases c <;> simp [State.dropReference, State.symbol?_updSymbol_map]

theorem State.symbol?_joinView : (s.joinView slot c).symbol? k =
    (s.symbol? k).map fun r => if c.quotes k then { r with viewList := r.viewList ++ [slot] } else r := by
  cases c <;> simp [State.joinView, State.symbol?_updSymbol_map]

theorem State.symbol?_leaveView : (s.leaveView slot c).symbol? k =
    (s.symbol? k).map fun r => if c.quotes k then { r with viewList := r.viewList.erase slot } else r := by
  cases c with
  | quote code link => exact s.symbol?_updSymbol_map link _ k |>.trans (by simp)
  | text => simp [State.leaveView]
  | mark => simp [State.leaveView]

theorem State.text?_addReference : (s.addReference c).text? k =
    (s.text? k).map fun r => if c.captions k then { r with refCount := r.refCount + 1 } else r := by
  cases c <;> simp [State.addReference, State.text?_updText_map]

theorem State.text?_dropReference : (s.dropReference c).text? k =
    (s.text? k).map fun r => if c.captions k then { r with refCount := r.refCount - 1 } else r := by
  cases c <;> simp [State.dropReference, State.text?_updText_map]

theorem State.text?_joinView : (s.joinView slot c).text? k =
    (s.text? k).map fun r => if c.captions k then { r with viewCount := r.viewCount + 1 } else r := by
  cases c <;> simp [State.joinView, State.text?_updText_map]

theorem State.text?_leaveView : (s.leaveView slot c).text? k =
    (s.text? k).map fun r => if c.captions k then { r with viewCount := r.viewCount - 1 } else r := by
  cases c with
  | quote => simp [State.leaveView]; rfl
  | text id => simp [State.leaveView, State.text?_updText_map]
  | mark => simp [State.leaveView]

@[simp] theorem State.addReference_formatter : (s.addReference c).formatter = s.formatter := by cases c <;> rfl
@[simp] theorem State.dropReference_formatter : (s.dropReference c).formatter = s.formatter := by cases c <;> rfl
@[simp] theorem State.joinView_formatter : (s.joinView slot c).formatter = s.formatter := by cases c <;> rfl

theorem State.leaveView_formatter :
    (s.leaveView slot c).formatter = if c.isQuote then s.formatter.without slot else s.formatter := by
  cases c <;> rfl

/-- References and views change the Symbol Table, the texts and the refreshes alone. -/
theorem State.addReference_rest : s.addReference c =
    { s with symbols := (s.addReference c).symbols, texts := (s.addReference c).texts } := by cases c <;> rfl

theorem State.dropReference_rest : s.dropReference c =
    { s with symbols := (s.dropReference c).symbols, texts := (s.dropReference c).texts } := by cases c <;> rfl

theorem State.leaveView_rest : s.leaveView slot c =
    { s with symbols := (s.leaveView slot c).symbols, texts := (s.leaveView slot c).texts
             formatter := (s.leaveView slot c).formatter } := by cases c <;> rfl

end

/-! ### What freeing an item changes (R31) -/

/-- A visible item leaves its view, a queued one has none. -/
def State.hide (s : State) (slot : Nat) (it : Item) : State := if it.cell.isSome then s.leaveView slot it.content else s

section
variable {s : State} {slot : Nat} {it : Item}

theorem State.hide_rest (s : State) (slot : Nat) (it : Item) : s.hide slot it =
    { s with symbols := (s.hide slot it).symbols, texts := (s.hide slot it).texts
             formatter := (s.hide slot it).formatter } := by
  unfold State.hide
  split
  · exact s.leaveView_rest it.content slot
  · rfl

theorem State.symbol?_hide (s : State) (slot : Nat) (it : Item) (k : Nat) : (s.hide slot it).symbol? k =
    (s.symbol? k).map fun r => if it.content.quotes k then
      { r with viewList := if it.cell.isSome then r.viewList.erase slot else r.viewList } else r := by
  unfold State.hide
  cases it.cell.isSome
  · simp
  · simp [State.symbol?_leaveView]

theorem State.text?_hide (s : State) (slot : Nat) (it : Item) (k : Nat) : (s.hide slot it).text? k =
    (s.text? k).map fun r => if it.content.captions k then
      { r with viewCount := if it.cell.isSome then r.viewCount - 1 else r.viewCount } else r := by
  unfold State.hide
  cases it.cell.isSome
  · simp
  · simp [State.text?_leaveView]

/-- The steps of freeing an item: its view, its place in the run list, its reference, its slot (R31). -/
theorem State.freeItem_steps (h : s.item? slot = some it) : s.freeItem slot =
    { ((s.hide slot it).updLane it.lane (Lane.dropItem slot)).dropReference it.content with
      pool := Pool.bump { s.pool with items := tableErase s.pool.items slot } slot } := by
  unfold State.freeItem
  rw [h]
  simp only [State.dropReference_pool, State.updLane_pool]
  rw [show (if it.isVisible = true then s.leaveView slot it.content else s) = s.hide slot it from rfl, s.hide_rest]

theorem State.freeItem_rest (h : s.item? slot = some it) : s.freeItem slot =
    { s with lanes := (s.freeItem slot).lanes, symbols := (s.freeItem slot).symbols, texts := (s.freeItem slot).texts
             formatter := (s.freeItem slot).formatter
             pool := Pool.bump { s.pool with items := tableErase s.pool.items slot } slot } := by
  rw [State.freeItem_steps h, State.dropReference_rest, State.hide_rest]
  rfl

theorem State.freeItem_symbol? (h : s.item? slot = some it) (k : Nat) : (s.freeItem slot).symbol? k =
    (s.symbol? k).map fun r => if it.content.quotes k then
      { r with refCount := r.refCount - 1, viewList := if it.cell.isSome then r.viewList.erase slot else r.viewList }
      else r := by
  rw [State.freeItem_steps h]
  refine (State.symbol?_dropReference _ it.content k).trans ?_
  rw [show ((s.hide slot it).updLane it.lane (Lane.dropItem slot)).symbol? k = (s.hide slot it).symbol? k from rfl,
    State.symbol?_hide, Option.map_map]
  congr 1; funext r; cases it.content.quotes k <;> rfl

theorem State.freeItem_text? (h : s.item? slot = some it) (k : Nat) : (s.freeItem slot).text? k =
    (s.text? k).map fun r => if it.content.captions k then
      { r with refCount := r.refCount - 1, viewCount := if it.cell.isSome then r.viewCount - 1 else r.viewCount }
      else r := by
  rw [State.freeItem_steps h]
  refine (State.text?_dropReference _ it.content k).trans ?_
  rw [show ((s.hide slot it).updLane it.lane (Lane.dropItem slot)).text? k = (s.hide slot it).text? k from rfl,
    State.text?_hide, Option.map_map]
  congr 1; funext r; cases it.content.captions k <;> rfl

theorem State.freeItem_formatter (h : s.item? slot = some it) : (s.freeItem slot).formatter =
    if it.cell.isSome ∧ it.content.isQuote then s.formatter.without slot else s.formatter := by
  rw [State.freeItem_steps h]
  refine (State.dropReference_formatter _ it.content).trans ?_
  rw [State.updLane_formatter, State.hide]
  by_cases hv : it.cell.isSome = true <;> simp [hv, State.leaveView_formatter]

/-- An item that quotes no symbol leaves the Symbol Table alone. -/
theorem State.freeItem_symbols (h : s.item? slot = some it) (hc : ∀ code link, it.content ≠ .quote code link) :
    (s.freeItem slot).symbols = s.symbols := by
  rw [State.freeItem_steps h, State.hide]
  cases hc' : it.content with
  | quote code link => exact absurd hc' (hc code link)
  | text | mark => split <;> rfl

theorem State.freeItem_lane_eq (h : s.item? slot = some it) (i : LaneId) :
    (s.freeItem slot).lane i = if i = it.lane then (s.lane i).dropItem slot else s.lane i := by
  rw [State.lane_congr (State.freeItem_eq h).1 i, State.lane_updLane]
  by_cases e : it.lane = i
  · simp [e]
  · simp [e, Ne.symm e]

/-- The generation of a freed slot rises, 31 wrapping to 0; those of other slots stand (R29, R31). -/
theorem Pool.generation_bump {p : Pool} (h : tableRising p.generations = true) (slot j : Nat) :
    (p.bump slot).generation j = if j = slot then (p.generation slot + 1) % 32 else p.generation j := by
  have hbump : (p.bump slot).generations = if (p.generation slot + 1) % 32 = 0 then tableErase p.generations slot
      else tablePut p.generations slot ((p.generation slot + 1) % 32) := rfl
  rw [Pool.generation, hbump]
  by_cases h0 : (p.generation slot + 1) % 32 = 0
  · rw [if_pos h0, tableFind_erase h]
    split
    · exact h0.symm
    · rfl
  · rw [if_neg h0, tableFind_put h]
    split <;> rfl

end

/-- Settles O21: the fields of a freed item's lane, symbol, text, refreshes and slot, one rule for each. -/
theorem freedItemsLeaveNoTrace : Obligations.FreedItemsLeaveNoTrace := by
  intro s slot it h hitems hgens
  have hrest := State.freeItem_rest h
  have hgen := Pool.generation_bump (p := { s.pool with items := tableErase s.pool.items slot }) hgens slot
  have hpool : (s.freeItem slot).pool = Pool.bump { s.pool with items := tableErase s.pool.items slot } slot := by rw [hrest]
  refine ⟨by rw [State.freeItem_item hitems, if_pos rfl], fun j hj => by rw [State.freeItem_item hitems, if_neg hj],
    by rw [hpool, hgen, if_pos rfl]; rfl, fun j hj => by rw [hpool, hgen, if_neg hj]; rfl,
    State.freeItem_lane_eq h, fun code link hc => ⟨fun k hk => ?_, ?_⟩, State.freeItem_symbols h, fun id => ?_,
    ⟨fun hf => ?_, fun hv hc => ?_⟩, by rw [hrest], by rw [hrest], by rw [hrest], by rw [hrest], by rw [hrest],
    by rw [hrest], by rw [hrest], by rw [hrest], by rw [hrest]⟩
  · simp [State.freeItem_symbol? h, hc, hk]
  · simp [State.freeItem_symbol? h, hc]
  · simp [State.freeItem_text? h, Content.captions]
  · rw [State.freeItem_formatter h, if_neg]
    rintro ⟨hv, hq⟩
    obtain ⟨code, link, hc⟩ := (Content.isQuote_iff _).mp hq
    rcases hf with hf | hf
    · simp [hf] at hv
    · exact hf code link hc
  · rw [State.freeItem_formatter h, if_pos ⟨Option.isSome_iff_ne_none.mpr hv, (Content.isQuote_iff _).mpr hc⟩]
    rfl

end Sys2Proof.Machine

namespace Sys2Proof.Machine

/-! ### The checks of an item request (R44 to R46) -/

section
variable {s t : State} {i : LaneId} {b : List Byte} {c : Content}

theorem countChanged_addReference (s : State) (c : Content) : CountChanged s (s.addReference c) c (· + 1) := by
  refine ⟨s.addReference_rest c, fun k => ?_, fun id => ?_⟩
  · rw [State.symbol?_addReference]; cases c <;> simp
  · rw [State.text?_addReference]; simp [Content.captions]

theorem countChanged_dropReference (s : State) (c : Content) : CountChanged s (s.dropReference c) c (· - 1) := by
  refine ⟨s.dropReference_rest c, fun k => ?_, fun id => ?_⟩
  · rw [State.symbol?_dropReference]; cases c <;> simp
  · rw [State.text?_dropReference]; simp [Content.captions]

@[simp] theorem State.addReference_pool (s : State) (c : Content) : (s.addReference c).pool = s.pool := by cases c <;> rfl

/-- The first byte of a content field. -/
theorem field_fieldBytes (b : List Byte) (n : Nat) : field (fieldBytes b n 8) 0 1 = field b n 1 := by
  simp [field, fieldBytes, List.take_take]

theorem headD_fieldBytes (b : List Byte) (n : Nat) : (fieldBytes b n 8).headD 0 = b.getD n 0 := by
  unfold fieldBytes
  rw [List.headD_eq_head?_getD, List.head?_take, List.head?_drop, List.getD_eq_getElem?_getD]
  simp

/-- What an item request names, by its kind byte at n and its content from m on: a symbol or a text that is there, or a
mark (R44, step 4). -/
def Named (s : State) (b : List Byte) (n m : Nat) (c : Content) : Prop :=
  field b n 1 = 0 ∧ (∃ link r, findCode s.symbols (fieldBytes b m 8) = some (link, r) ∧
      c = .quote (fieldBytes b m 8) link) ∨
    field b n 1 = 1 ∧ s.text? (field b m 1) ≠ none ∧ c = .text (field b m 1) ∨
    field b n 1 = 2 ∧ c = .mark (b.getD m 0)

theorem contentOf_named {n m : Nat} (h : Named s b n m c) : contentOf s (field b n 1) (fieldBytes b m 8) = .ok c := by
  rcases h with ⟨hk, link, r, hf, rfl⟩ | ⟨hk, ht, rfl⟩ | ⟨hk, rfl⟩
  · simp [contentOf, hk, hf]
  · obtain ⟨x, hx⟩ := Option.ne_none_iff_exists'.mp ht
    simp [contentOf, hk, field_fieldBytes, hx]
  · simp only [contentOf, hk, headD_fieldBytes]

theorem contentOf_noSymbol {n m : Nat} (hk : field b n 1 = 0) (hf : findCode s.symbols (fieldBytes b m 8) = none) :
    contentOf s (field b n 1) (fieldBytes b m 8) = .error .noSymbol := by
  simp [contentOf, hk, hf]

theorem contentOf_noText {n m : Nat} (hk : field b n 1 = 1) (ht : s.text? (field b m 1) = none) :
    contentOf s (field b n 1) (fieldBytes b m 8) = .error .noText := by
  simp [contentOf, hk, field_fieldBytes, ht]

/-- A kind in range names something when its symbol or text is there. -/
theorem exists_named {n m : Nat} (hk : field b n 1 ≤ 2)
    (hq : field b n 1 = 0 → findCode s.symbols (fieldBytes b m 8) ≠ none)
    (ht : field b n 1 = 1 → s.text? (field b m 1) ≠ none) : ∃ c, Named s b n m c := by
  rcases (show field b n 1 = 0 ∨ field b n 1 = 1 ∨ field b n 1 = 2 by omega) with h | h | h
  · obtain ⟨⟨link, r⟩, hf⟩ := Option.ne_none_iff_exists'.mp (hq h)
    exact ⟨_, .inl ⟨h, link, r, hf, rfl⟩⟩
  · exact ⟨_, .inr (.inl ⟨h, ht h, rfl⟩)⟩
  · exact ⟨_, .inr (.inr ⟨h, rfl⟩)⟩

/-- A kind, a minimum width or an ink out of range (R44, step 3). -/
theorem itemFieldsOk_none {off : Nat}
    (h : 2 < field b (off + 1) 1 ∨ 4095 < field b (off + 13) 2 ∨ 15 < field b (off + 15) 1) : itemFieldsOk b off = none := by
  unfold itemFieldsOk
  split
  · rfl
  · exact small?_none (by omega)

theorem itemFieldsOk_some {off : Nat}
    (h : ¬ (2 < field b (off + 1) 1 ∨ 4095 < field b (off + 13) 2 ∨ 15 < field b (off + 15) 1)) :
    ∃ ink : Fin 16, field b (off + 15) 1 = ink.val ∧ itemFieldsOk b off = some ink := by
  obtain ⟨ink, hink⟩ := small?_isSome_iff.mpr (show field b (off + 15) 1 < 16 by omega)
  exact ⟨ink, small?_some hink, by rw [itemFieldsOk, if_neg (by omega), hink]⟩

/-- A check that refuses, or finds what the rest of a rule goes by. -/
def orRefuse {α : Type} (s : State) (x : Except Result α) (rule : α → State × Reply) : State × Reply :=
  match x with
  | .error r => refuse s r
  | .ok a => rule a

@[simp] theorem orRefuse_error {α : Type} (r : Result) (rule : α → State × Reply) :
    orRefuse s (.error r) rule = refuse s r := rfl
@[simp] theorem orRefuse_ok {α : Type} (a : α) (rule : α → State × Reply) : orRefuse s (.ok a) rule = rule a := rfl

/-- The item an item request makes, its fields from byte `off` of the body on (R32, R44). -/
def newItem (i : LaneId) (b : List Byte) (off : Nat) (ink : Fin 16) (c : Content) : Item :=
  { lane := i, content := c, passes := field b (off + 10) 1, holdDwell := dwellOf (field b (off + 11) 2)
    minWidth := field b (off + 13) 2, ink := ink, cell := none }

/-- The state with an item in a slot of the pool. -/
def State.putItem (s : State) (slot : Nat) (it : Item) : State :=
  { s with pool := { s.pool with items := tablePut s.pool.items slot it } }

theorem makeItem_full {off : Nat} {ink : Fin 16} {place : Nat → Lane → Lane} (hr : tableRising s.pool.items = true)
    (h : ∀ j, j < 2048 → s.item? j ≠ none) : makeItem s i b off ink c place = refuse s .poolFull := by
  rw [makeItem, (lowestFree_eq_none (limit := Config.itemSlots) hr).mpr h]

/-- The lowest free slot takes the item (R29, R44). -/
theorem makeItem_made {off slot : Nat} {ink : Fin 16} {place : Nat → Lane → Lane} (hr : tableRising s.pool.items = true)
    (hs : slot < 2048) (hf : s.item? slot = none) (hl : ∀ j, j < slot → s.item? j ≠ none) :
    makeItem s i b off ink c place =
      (((s.putItem slot (newItem i b off ink c)).setLane i (place slot (s.lane i))).addReference c,
        okWith (be 2 (s.pool.generation slot * 2048 + slot))) := by
  rw [makeItem, (lowestFree_eq_some (limit := Config.itemSlots) hr).mpr ⟨hs, hf, hl⟩]
  simp only [Pool.handle, State.addReference_pool]
  rfl

end

/-! ### ITEM_APPEND (R44) -/

/-- The rule of ITEM_APPEND on a lane that is not OFF, its fields in range. -/
theorem itemAppendRule_eq {s : State} {i : LaneId} {b : List Byte} {ink : Fin 16} (hi : field b 0 1 = i.val)
    (hoff : (s.lane i).state ≠ .off) (hink : itemFieldsOk b 0 = some ink) :
    itemAppendRule b s = orRefuse s (contentOf s (field b 1 1) (fieldBytes b 2 8)) fun c =>
      makeItem s i b 0 ink c fun slot l => { l with queued := l.queued ++ [slot] } := by
  rw [itemAppendRule, withLane_eq hi, if_neg hoff, hink]
  cases contentOf s (field b 1 1) (fieldBytes b 2 8) <;> rfl

/-- Settles O33: the checks are `itemFieldsOk` and `contentOf`, the new item is `makeItem_made`. -/
theorem itemsAreAppended : Obligations.ItemsAreAppended := by
  intro tag b s i h hlen hi hr ends bad full
  have hl : lengthFits 0x20 b.length = true := by rw [hlen]; rfl
  have named (hoff : (s.lane i).state ≠ .off) (hgood : ¬ bad) {x : Except Result Content}
      (hx : contentOf s (field b 1 1) (fieldBytes b 2 8) = x) : ∃ ink : Fin 16, field b 15 1 = ink.val ∧
      itemAppendRule b s = orRefuse s x fun c =>
        makeItem s i b 0 ink c fun slot l => { l with queued := l.queued ++ [slot] } := by
    obtain ⟨ink, hink, hok⟩ := itemFieldsOk_some (off := 0) hgood
    exact ⟨ink, hink, hx ▸ itemAppendRule_eq hi hoff hok⟩
  refine ⟨fun hoff => ?_, fun hoff hbad => ?_, fun hoff hgood hk hf => ?_, fun hoff hgood hk ht => ?_,
    fun c hoff hgood hc => ⟨fun hfull => ?_, fun slot ink hs hfree hlow hink => ⟨_, countChanged_addReference _ c, ?_⟩⟩⟩
  · exact answers_refused .busy h hl (by rw [itemAppendRule, withLane_eq hi, if_pos hoff])
  · exact answers_refused .badParam h hl
      (by rw [itemAppendRule, withLane_eq hi, if_neg hoff, itemFieldsOk_none (off := 0) hbad])
  · obtain ⟨ink, -, hrule⟩ := named hoff hgood (contentOf_noSymbol (m := 2) hk hf)
    exact answers_refused .noSymbol h hl hrule
  · obtain ⟨ink, -, hrule⟩ := named hoff hgood (contentOf_noText (m := 2) hk ht)
    exact answers_refused .noText h hl hrule
  · obtain ⟨ink, -, hrule⟩ := named hoff hgood (contentOf_named (n := 1) (m := 2) hc)
    exact answers_refused .poolFull h hl (hrule.trans (makeItem_full hr hfull))
  · obtain ⟨ink', hink', hrule⟩ := named hoff hgood (contentOf_named (n := 1) (m := 2) hc)
    obtain rfl : ink = ink' := Fin.ext (hink.symm.trans hink')
    exact answers_data h hl (hrule.trans (makeItem_made hr hs hfree hlow))

/-! ### ITEM_INSERT (R45) -/

section
variable {s : State} {i : LaneId} {b : List Byte} {n : Nat} {p : Item}

/-- The front of the queued part. -/
def atFront (slot : Nat) (l : Lane) : Lane := { l with queued := slot :: l.queued }

/-- Directly behind a queued item. -/
def behind (after slot : Nat) (l : Lane) : Lane := { l with queued := insertAfter after slot l.queued }

/-- The handle names the item in its slot (R30). -/
theorem State.resolve_handle (hit : s.item? (n % 2048) = some p) (hg : s.pool.generation (n % 2048) = n / 2048) :
    s.resolve n = some (n % 2048, p) :=
  State.resolve_some (Nat.mod_lt _ (by decide)) hit (by omega)

theorem placeAt_front (h : n = 0xFFFF) : placeAt s i n = .ok atFront := if_pos h

theorem placeAt_noItem (h : n ≠ 0xFFFF)
    (hn : s.item? (n % 2048) = none ∨ s.pool.generation (n % 2048) ≠ n / 2048) : placeAt s i n = .error .noItem := by
  refine (if_neg h).trans ?_
  rw [State.resolve_none hn]

/-- A position that names an item: it is one of the lane's own, and a visible one must be the last (R45). -/
theorem placeAt_item (h : n ≠ 0xFFFF) (hit : s.item? (n % 2048) = some p)
    (hg : s.pool.generation (n % 2048) = n / 2048) : placeAt s i n =
      if p.lane ≠ i then .error .badParam
      else if p.isVisible then
        if (s.lane i).visible.getLast? = some (n % 2048) then .ok atFront else .error .visible
      else .ok (behind (n % 2048)) := by
  refine (if_neg h).trans ?_
  rw [State.resolve_handle hit hg]
  rfl

theorem Item.isVisible_iff (it : Item) : it.isVisible = true ↔ it.cell ≠ none := Option.isSome_iff_ne_none

/-- A place after the last visible item is the front of the queued part. -/
theorem placeAt_last (h : n ≠ 0xFFFF) (hit : s.item? (n % 2048) = some p)
    (hg : s.pool.generation (n % 2048) = n / 2048) (hp : p.lane = i) (hc : p.cell ≠ none)
    (hlast : (s.lane i).visible.getLast? = some (n % 2048)) : placeAt s i n = .ok atFront := by
  rw [placeAt_item h hit hg, if_neg (not_not.mpr hp), if_pos ((Item.isVisible_iff p).mpr hc), if_pos hlast]

theorem placeAt_queue (h : n ≠ 0xFFFF) (hit : s.item? (n % 2048) = some p)
    (hg : s.pool.generation (n % 2048) = n / 2048) (hp : p.lane = i) (hc : p.cell = none) :
    placeAt s i n = .ok (behind (n % 2048)) := by
  rw [placeAt_item h hit hg, if_neg (not_not.mpr hp), if_neg (by simp [Item.isVisible, hc])]

/-- A position at which an item may be inserted in the lane (R45). -/
def Placed (s : State) (i : LaneId) (n : Nat) : Prop :=
  n = 0xFFFF ∨ ∃ p : Item, s.item? (n % 2048) = some p ∧ s.pool.generation (n % 2048) = n / 2048 ∧ p.lane = i ∧
    (p.cell ≠ none → (s.lane i).visible.getLast? = some (n % 2048))

theorem Placed.place (h : Placed s i n) : ∃ place, placeAt s i n = .ok place := by
  by_cases hn : n = 0xFFFF
  · exact ⟨_, placeAt_front hn⟩
  · obtain ⟨p, hit, hg, hp, hlast⟩ := h.resolve_left hn
    by_cases hc : p.cell = none
    · exact ⟨_, placeAt_queue hn hit hg hp hc⟩
    · exact ⟨_, placeAt_last hn hit hg hp hc (hlast hc)⟩

theorem insertAfter_split {x new : Nat} {before after : List Nat} (h : x ∉ before) :
    insertAfter x new (before ++ x :: after) = before ++ x :: new :: after := by
  induction before with
  | nil => simp [insertAfter]
  | cons a before ih =>
    rw [List.mem_cons, not_or] at h
    simp [insertAfter, Ne.symm h.1, ih h.2]

theorem field_drop (b : List Byte) (n m w : Nat) : field (b.drop n) m w = field b (n + m) w := by
  simp [field, List.drop_drop]

/-- The rule of ITEM_INSERT on a lane that is not OFF, its fields in range. -/
theorem itemInsertRule_eq {ink : Fin 16} (hi : field b 2 1 = i.val)
    (hoff : (s.lane i).state ≠ .off) (hink : itemFieldsOk b 2 = some ink) :
    itemInsertRule b s = orRefuse s (placeAt s i (field b 0 2)) fun place =>
      orRefuse s (contentOf s (field b 3 1) (fieldBytes b 4 8)) fun c => makeItem s i b 2 ink c place := by
  rw [itemInsertRule, withLane_eq ((field_drop b 2 0 1).trans hi), if_neg hoff, hink]
  cases placeAt s i (field b 0 2) with
  | error => rfl
  | ok place => cases contentOf s (field b 3 1) (fieldBytes b 4 8) <;> rfl

end

/-- Settles O34: after the checks of the fields, `placeAt` gives the place and `makeItem_made` the item. -/
theorem itemsAreInserted : Obligations.ItemsAreInserted := by
  intro tag b s h hlen ends
  have hl : lengthFits 0x21 b.length = true := by rw [hlen]; rfl
  refine ⟨fun hi => answers_refused .badParam h hl (withLane_none ((field_drop b 2 0 1).symm ▸ hi) s _),
    fun i hi => ?_⟩
  intro bad position
  have rule (hoff : (s.lane i).state ≠ .off) (hgood : ¬ bad) : ∃ ink : Fin 16, field b 17 1 = ink.val ∧
      itemInsertRule b s = orRefuse s (placeAt s i position) fun place =>
        orRefuse s (contentOf s (field b 3 1) (fieldBytes b 4 8)) fun c => makeItem s i b 2 ink c place := by
    obtain ⟨ink, hink, hok⟩ := itemFieldsOk_some (off := 2) hgood
    exact ⟨ink, hink, itemInsertRule_eq hi hoff hok⟩
  have misplaced (hoff : (s.lane i).state ≠ .off) (hgood : ¬ bad) {r : Result} (hp : placeAt s i position = .error r) :
      ends r.code := by
    obtain ⟨ink, -, hrule⟩ := rule hoff hgood
    exact answers_refused r h hl (by rw [hrule, hp, orRefuse_error])
  have refused (hoff : (s.lane i).state ≠ .off) (hgood : ¬ bad) (hp : Placed s i position) {r : Result}
      (hc : contentOf s (field b 3 1) (fieldBytes b 4 8) = .error r) : ends r.code := by
    obtain ⟨ink, -, hrule⟩ := rule hoff hgood
    obtain ⟨place, hplace⟩ := hp.place
    exact answers_refused r h hl (by rw [hrule, hplace, orRefuse_ok, hc, orRefuse_error])
  refine ⟨fun hoff => ?_, fun hoff hbad => ?_, fun hoff hgood hn hno => ?_,
    fun it hoff hgood hn hit hg => ⟨fun hlane => ?_, fun hlane hc hlast => ?_⟩,
    fun hoff hgood hp hk hf => ?_, fun hoff hgood hp hk ht => ?_, fun hoff hgood hp hr hq ht hfull => ?_,
    fun c slot ink hoff hgood hr hc hs hfree hlow hink => ?_⟩
  · exact answers_refused .busy h hl
      (by rw [itemInsertRule, withLane_eq ((field_drop b 2 0 1).trans hi), if_pos hoff])
  · exact answers_refused .badParam h hl
      (by rw [itemInsertRule, withLane_eq ((field_drop b 2 0 1).trans hi), if_neg hoff, itemFieldsOk_none (off := 2) hbad])
  · exact misplaced hoff hgood (placeAt_noItem hn hno)
  · exact misplaced (r := .badParam) hoff hgood (by rw [placeAt_item hn hit hg, if_pos hlane])
  · refine misplaced (r := .visible) hoff hgood ?_
    rw [placeAt_item hn hit hg, if_neg (not_not.mpr hlane), if_pos ((Item.isVisible_iff it).mpr hc), if_neg hlast]
  · exact refused hoff hgood hp (contentOf_noSymbol (m := 4) hk hf)
  · exact refused hoff hgood hp (contentOf_noText (m := 4) hk ht)
  · obtain ⟨ink, -, hrule⟩ := rule hoff hgood
    obtain ⟨place, hplace⟩ := Placed.place (i := i) hp
    obtain ⟨c, hc⟩ := exists_named (m := 4) (show field b 3 1 ≤ 2 by omega) hq ht
    refine answers_refused .poolFull h hl ?_
    rw [hrule, hplace, orRefuse_ok, contentOf_named hc, orRefuse_ok]
    exact makeItem_full hr hfull
  · have made {place : Nat → Lane → Lane} {queue : List Nat} (hplace : placeAt s i position = .ok place)
        (hqueue : place slot (s.lane i) = { s.lane i with queued := queue }) :
        ∃ t : State, CountChanged ((s.putItem slot (newItem i b 2 ink c)).setLane i { s.lane i with queued := queue }) t c
            (· + 1) ∧
          exec (.itemInsert tag b) s = .next (t.answered 0x21 tag 0x00 (be 2 (s.pool.generation slot * 2048 + slot))) := by
      obtain ⟨ink', hink', hrule⟩ := rule hoff hgood
      obtain rfl : ink = ink' := Fin.ext (hink.symm.trans hink')
      refine ⟨_, countChanged_addReference _ c, answers_data h hl ?_⟩
      rw [hrule, hplace, orRefuse_ok, contentOf_named (n := 3) (m := 4) hc, ← hqueue]
      exact makeItem_made hr hs hfree hlow
    refine ⟨fun hn => made (placeAt_front hn) rfl, fun p hn hit hg hp => ⟨fun hcell hlast => ?_,
      fun before after hcell hqueue hnot => ?_⟩⟩
    · exact made (placeAt_last hn hit hg hp hcell hlast) rfl
    · refine made (placeAt_queue hn hit hg hp hcell) ?_
      rw [behind, hqueue, insertAfter_split hnot]

/-! ### ITEM_REPLACE, ITEM_REMOVE and ITEM_PASSES (R46 to R48) -/

/-- Settles O35: the handle resolves to the item, and each rule goes by its cell; a replaced content takes one reference and
gives one up. -/
theorem itemsAreChangedByHandle : Obligations.ItemsAreChangedByHandle := by
  intro tag b s slot it hs hit hn
  have named (rule : Nat → Item → State × Reply) : withItem b s rule = rule slot it := by
    rw [withItem, State.resolve_some hs hit hn]
  refine ⟨fun h hlen => answers_ok h (by rw [hlen]; rfl) (named _), fun h hlen => ?_, fun h hlen => ?_⟩
  · have hl : lengthFits 0x23 b.length = true := by rw [hlen]; rfl
    refine ⟨fun hc => answers_ok h hl ?_, fun hc => ?_⟩
    · rw [itemRemoveRule, named, if_neg (by simp [Item.isVisible, hc])]
    · have hrule : itemRemoveRule b s = (s.updItem slot fun it => { it with passes := 1 }, bare .deferred) := by
        rw [itemRemoveRule, named, if_pos ((Item.isVisible_iff it).mpr hc)]
      exact congrArg Host.Outcome.next (serve_result h hl hrule)
  · have hl : lengthFits 0x22 b.length = true := by rw [hlen]; rfl
    intro ends bad
    have rule (hgood : ¬ bad) (hc : it.cell = none) : ∃ ink : Fin 16, field b 11 1 = ink.val ∧
        itemReplaceRule b s = orRefuse s (contentOf s (field b 2 1) (fieldBytes b 3 8)) fun c =>
          accept (((s.addReference c).dropReference it.content).updItem slot fun it =>
            { it with content := c, ink := ink }) := by
      obtain ⟨ink, hink⟩ := small?_isSome_iff.mpr (show field b 11 1 < 16 by omega)
      refine ⟨ink, small?_some hink, ?_⟩
      rw [itemReplaceRule, named, if_neg (by omega), hink]
      refine (if_neg (c := it.isVisible = true) (by simp [Item.isVisible, hc])).trans ?_
      cases contentOf s (field b 2 1) (fieldBytes b 3 8) <;> rfl
    refine ⟨fun hbad => answers_refused .badParam h hl ?_, fun hgood hc => answers_refused .visible h hl ?_,
      fun hgood hc hk hf => ?_, fun hgood hc hk ht => ?_, fun c ink hgood hc hink hnamed => ?_⟩
    · rw [itemReplaceRule, named]
      by_cases hk : 2 < field b 2 1
      · rw [if_pos hk]
      · rw [if_neg hk, small?_none (n := 16) (by omega)]
    · obtain ⟨ink, hink⟩ := small?_isSome_iff.mpr (show field b 11 1 < 16 by omega)
      rw [itemReplaceRule, named, if_neg (by omega), hink]
      exact if_pos ((Item.isVisible_iff it).mpr hc)
    · obtain ⟨ink, -, hrule⟩ := rule hgood hc
      exact answers_refused .noSymbol h hl (by rw [hrule, contentOf_noSymbol hk hf, orRefuse_error])
    · obtain ⟨ink, -, hrule⟩ := rule hgood hc
      exact answers_refused .noText h hl (by rw [hrule, contentOf_noText hk ht, orRefuse_error])
    · obtain ⟨ink', hink', hrule⟩ := rule hgood hc
      obtain rfl : ink = ink' := Fin.ext (hink.symm.trans hink')
      refine ⟨_, _, countChanged_addReference s c, countChanged_dropReference _ it.content, answers_ok h hl ?_⟩
      rw [hrule, contentOf_named (n := 2) (m := 3) hnamed, orRefuse_ok]

/-! ### RUN_CLEAR (R49) -/

/-- Of items freed one after another, those and no others are gone. -/
theorem State.freeItems_item {s : State} (ks : List Nat) (h : tableRising s.pool.items = true) (j : Nat) :
    (s.freeItems ks).item? j = if j ∈ ks then none else s.item? j := by
  induction ks generalizing s with
  | nil => rfl
  | cons k ks ih =>
    refine (ih (State.freeItem_rising h k)).trans ?_
    rw [State.freeItem_item h]
    by_cases hj : j = k <;> by_cases hm : j ∈ ks <;> simp [hj, hm]

/-- Items of one lane freed one after another leave the other lanes alone. -/
theorem State.freeItems_other_lane {s : State} {i j : LaneId} {ks : List Nat} (hr : tableRising s.pool.items = true)
    (ho : ∀ k ∈ ks, s.OwnedBy i k) (hj : j ≠ i) : (s.freeItems ks).lane j = s.lane j := by
  induction ks generalizing s with
  | nil => rfl
  | cons k ks ih =>
    have hown : ∀ k' ∈ ks, (s.freeItem k).OwnedBy i k' := fun k' hk' it hit => by
      rw [State.freeItem_item hr] at hit
      split at hit
      · cases hit
      · exact ho k' (by simp [hk']) it hit
    refine (ih (State.freeItem_rising hr k) hown).trans ?_
    cases hit : s.item? k with
    | none => rw [State.freeItem_none hit]
    | some it => rw [State.freeItem_lane_eq hit, if_neg (ho k (by simp) it hit ▸ hj)]

/-- Settles O36: what RUN_CLEAR frees is `freeItems`, and the queued items stand in no visible part. -/
theorem runClearFreesTheQueuedItems : Obligations.RunClearFreesTheQueuedItems := by
  intro tag b s i h hlen hi hlists
  have hown : ∀ k ∈ (s.lane i).queued, ∃ it, s.item? k = some it ∧ it.lane = i := fun k hk => by
    obtain ⟨it, hit, hlane, -⟩ := hlists.queued i k hk
    exact ⟨it, hit, hlane⟩
  obtain ⟨hvisible, hqueue, hdisj⟩ := List.nodup_append.mp (hlists.once i)
  refine ⟨_, rfl, answers_data h (by rw [hlen]; rfl) ?_, ?_, fun j hj => ?_, fun slot hs => ?_, fun slot hs => ?_⟩
  · rw [runClearRule, withLane_eq hi]
  · have hkept : (s.lane i).visible.diff (s.lane i).queued = (s.lane i).visible := by
      rw [hvisible.sdiff_eq_filter, List.filter_eq_self]
      exact fun k hk => decide_eq_true fun hq => hdisj k hk k hq rfl
    have hgone : (s.lane i).queued.diff (s.lane i).queued = [] := by
      rw [hqueue.sdiff_eq_filter, List.filter_eq_nil_iff]
      exact fun k hk => by simpa using hk
    rw [State.freeItems_own_lane hlists.rising hqueue hown, hkept, hgone]
  · exact State.freeItems_other_lane hlists.rising
      (fun k hk => hlists.ownLists.own i k (List.mem_append_right _ hk)) hj
  · rw [State.freeItems_item _ hlists.rising, if_pos hs]
  · rw [State.freeItems_item _ hlists.rising, if_neg hs]

end Sys2Proof.Machine

namespace Sys2Proof.Machine

/-! ### Items that leave their run list before they are disposed of (R37, R41) -/

theorem tableErase_update {α : Type} (t : Table α) (k : Nat) (f : α → α) :
    tableErase (tableUpdate t k f) k = tableErase t k := by
  induction t with
  | nil => rfl
  | cons p t ih =>
    obtain ⟨j, w⟩ := p
    by_cases h : j = k
    · simp [tableUpdate, tableErase, h]
    · simp [tableUpdate, tableErase, h, ih]

theorem tableUpdate_update {α : Type} (t : Table α) (k : Nat) (f g : α → α) :
    tableUpdate (tableUpdate t k f) k g = tableUpdate t k fun a => g (f a) := by
  induction t with
  | nil => rfl
  | cons p t ih =>
    obtain ⟨j, w⟩ := p
    by_cases h : j = k
    · simp [tableUpdate, h]
    · simp [tableUpdate, h, ih]

section
variable {s : State} {i : LaneId} {l : Lane} {slot : Nat} {rest : List Nat} {it : Item}

theorem Lane.dropItem_queueHead (hq : l.queued = slot :: rest) (hv : slot ∉ l.visible) :
    l.dropItem slot = { l with queued := rest } := by
  simp [Lane.dropItem, hq, List.erase_of_not_mem hv]

theorem Lane.dropItem_visibleHead (hv : l.visible = slot :: rest) (hq : slot ∉ l.queued) :
    l.dropItem slot = { l with visible := rest } := by
  simp [Lane.dropItem, hv, List.erase_of_not_mem hq]

theorem Lane.dropItem_of_not_mem (hv : slot ∉ l.visible) (hq : slot ∉ l.queued) : l.dropItem slot = l := by
  simp [Lane.dropItem, List.erase_of_not_mem hv, List.erase_of_not_mem hq]

theorem Lane.dropItem_queueHead_twice (hq : l.queued = slot :: rest) (hr : slot ∉ rest) (hv : slot ∉ l.visible) :
    (l.dropItem slot).dropItem slot = l.dropItem slot := by
  rw [Lane.dropItem_queueHead hq hv]
  exact Lane.dropItem_of_not_mem hv hr

theorem Lane.dropItem_visibleHead_twice (hv : l.visible = slot :: rest) (hr : slot ∉ rest) (hq : slot ∉ l.queued) :
    (l.dropItem slot).dropItem slot = l.dropItem slot := by
  rw [Lane.dropItem_visibleHead hv hq]
  exact Lane.dropItem_of_not_mem hr hq

/-- An item stands once in a run list: dropped, it is gone. -/
theorem Lane.dropItem_dropItem (h : (l.visible ++ l.queued).Nodup) : (l.dropItem slot).dropItem slot = l.dropItem slot := by
  obtain ⟨hv, hq, -⟩ := List.nodup_append.mp h
  exact Lane.dropItem_of_not_mem hv.not_mem_erase hq.not_mem_erase

/-- A queued item freed after it left the run list. -/
theorem State.freeItem_of_dropped (hit : s.item? slot = some it) (hc : it.cell = none)
    (hd : ((s.lane it.lane).dropItem slot).dropItem slot = (s.lane it.lane).dropItem slot) :
    (s.updLane it.lane (Lane.dropItem slot)).freeItem slot = s.freeItem slot := by
  have hhide (u : State) : u.hide slot it = u := by simp [State.hide, hc]
  have hit' : (s.updLane it.lane (Lane.dropItem slot)).item? slot = some it := hit
  rw [State.freeItem_steps hit', State.freeItem_steps hit, hhide, hhide]
  simp only [State.updLane_eq, State.lane_setLane_same, State.setLane_setLane, hd]
  rfl

/-- A visible item freed after it gave up its view and its cell and left the run list. -/
theorem State.freeItem_of_hidden (hit : s.item? slot = some it) (hc : it.cell ≠ none)
    (hd : ((s.lane it.lane).dropItem slot).dropItem slot = (s.lane it.lane).dropItem slot) :
    (((s.leaveView slot it.content).updItem slot fun it => { it with cell := none }).updLane it.lane
      (Lane.dropItem slot)).freeItem slot = s.freeItem slot := by
  have hit' : (((s.leaveView slot it.content).updItem slot fun it => { it with cell := none }).updLane it.lane
      (Lane.dropItem slot)).item? slot = some { it with cell := none } := by
    rw [State.updLane_item, State.item?_updItem, if_pos rfl]
    simp only [State.item?, State.leaveView_pool]
    exact congrArg (Option.map _) hit
  have hlane : (s.leaveView slot it.content).lane it.lane = s.lane it.lane :=
    State.lane_congr (s.leaveView_lanes slot it.content) it.lane
  have hhide : s.hide slot it = s.leaveView slot it.content := if_pos (Option.isSome_iff_ne_none.mpr hc)
  have hstays (u : State) : u.hide slot { it with cell := none } = u := by simp [State.hide]
  rw [State.freeItem_steps hit', State.freeItem_steps hit, hhide, hstays]
  simp only [State.updLane_eq, State.lane_setLane_same, State.setLane_setLane, State.updItem_lane, hlane,
    hd, State.setLane_pool, State.updItem_pool, State.leaveView_pool, tableErase_update]
  cases it.content <;> rfl

/-- The lane with an item put at the tail of its run list again. -/
def Lane.requeue (l : Lane) (slot : Nat) : Lane := { l.dropItem slot with queued := (l.dropItem slot).queued ++ [slot] }

theorem Lane.requeue_queueHead (hq : l.queued = slot :: rest) (hv : slot ∉ l.visible) :
    l.requeue slot = { l with queued := rest ++ [slot] } := by
  rw [Lane.requeue, Lane.dropItem_queueHead hq hv]

theorem Lane.requeue_visibleHead (hv : l.visible = slot :: rest) (hq : slot ∉ l.queued) :
    l.requeue slot = { l with visible := rest, queued := l.queued ++ [slot] } := by
  rw [Lane.requeue, Lane.dropItem_visibleHead hv hq]

/-- An item at its last pass is freed when it is passed over. -/
theorem State.skipItem_last (hit : s.item? slot = some it) (hc : it.cell = none) (hp : it.passes = 1)
    (hd : ((s.lane it.lane).dropItem slot).dropItem slot = (s.lane it.lane).dropItem slot) :
    s.skipItem it.lane slot it = (s.freeItem slot).raise (.retired it.lane) := by
  rw [State.skipItem, State.disposeItem, if_pos hp, State.freeItem_of_dropped hit hc hd]

theorem State.skipItem_again (hit : s.item? slot = some it) (hp : it.passes ≠ 1) (i : LaneId) :
    s.skipItem i slot it =
      (s.updItem slot fun it => { it with passes := it.passes - 1 }).setLane i ((s.lane i).requeue slot) := by
  rw [State.skipItem, State.disposeItem, if_neg hp]
  rw [State.updItem_congr (s := s.updLane i (Lane.dropItem slot)) (f := fun x => { x with passes := it.passes - 1 })
    (g := fun it => { it with passes := it.passes - 1 }) (it := it) hit rfl]
  simp only [State.updLane_eq, State.updItem_lane, State.lane_setLane_same]
  simp only [State.setLane, State.updItem, Vector.set_set]
  rfl

/-- An item at its last pass is freed when it retires. -/
theorem State.retire_last (hit : s.item? slot = some it) (hc : it.cell ≠ none) (hp : it.passes = 1)
    (hd : ((s.lane it.lane).dropItem slot).dropItem slot = (s.lane it.lane).dropItem slot) :
    s.retire it.lane slot it = (s.freeItem slot).raise (.retired it.lane) := by
  rw [State.retire]
  rw [State.disposeItem, if_pos hp, State.freeItem_of_hidden hit hc hd]

theorem State.retire_again (hit : s.item? slot = some it) (hp : it.passes ≠ 1) (i : LaneId) :
    s.retire i slot it = ((s.leaveView slot it.content).updItem slot fun it =>
      { it with cell := none, passes := it.passes - 1 }).setLane i ((s.lane i).requeue slot) := by
  have hview : (s.leaveView slot it.content).item? slot = some it := by
    simp only [State.item?, State.leaveView_pool]; exact hit
  have hlane : (s.leaveView slot it.content).lane i = s.lane i := State.lane_congr (s.leaveView_lanes slot it.content) i
  rw [State.retire]
  rw [State.disposeItem, if_neg hp, State.updItem_congr (f := fun it => { it with cell := none, passes := it.passes - 1 })
    (g := fun x => { x with cell := none, passes := it.passes - 1 }) hview rfl]
  simp only [State.updLane_eq, State.updItem_lane, State.lane_setLane_same, hlane]
  simp only [State.setLane, State.updItem, Vector.set_set, tableUpdate_update]
  rfl

end

/-! ### Retirement, item by item (R36, R37) -/

section
variable {s : State} {i : LaneId} {slot : Nat} {rest : List Nat} {it : Item} {c : Cell}

theorem hasCrossed_iff (l : Lane) (c : Cell) :
    hasCrossed l c = true ↔ (l.setup.width + c.width) * 64 ≤ l.travel - c.entry := decide_eq_true_iff

/-- The head of the visible items, by its cell. -/
theorem retirePart_head (hv : (s.lane i).visible = slot :: rest) (hit : s.item? slot = some it) (hc : it.cell = some c) :
    s.retirePart i = if hasCrossed (s.lane i) c then (s.retire i slot it).retireFrom i rest else s := by
  rw [State.retirePart, hv, State.retireFrom]
  simp only [hit, hc]

/-- After the head retired, the part goes on with the visible items that are left. -/
theorem retireFrom_rest {u : State} (h : (u.lane i).visible = rest) : u.retireFrom i rest = u.retirePart i := by
  rw [State.retirePart, h]

end

/-! ### The item that enters (R38, R39) -/

/-- The cell an item enters with (R33, R38). -/
def State.entryCell (s : State) (i : LaneId) (before : Nat) (it : Item) : Cell :=
  { entry := max (s.lane i).nextEntry before
    width := max (max (s.formatEntry i it.content).2.2 it.minWidth) 1
    rendering := (s.formatEntry i it.content).1, style := (s.formatEntry i it.content).2.1
    flash := 0, flashDir := .up, forcedStale := false }

/-- The lane after an item entered with a cell (R38, R39). -/
def Lane.entered (l : Lane) (slot : Nat) (c : Cell) (dwell : Option Nat) : Lane :=
  { l with
    visible := l.visible ++ [slot], queued := l.queued.erase slot
    nextEntry := min (c.entry + (c.width + l.setup.gap) * 64) Config.maxTravel, entries := l.entries + 1
    targets := (holdTarget l c.entry dwell).foldl (fun ts t => insertTarget t ts) l.targets }

section
variable {s : State} {i : LaneId} {slot before : Nat} {it : Item}

theorem State.enterItem_eq (s : State) (i : LaneId) (before slot : Nat) (it : Item) :
    s.enterItem i before slot it =
      (((s.updItem slot fun x => { x with cell := some (s.entryCell i before it) }).setLane i
        ((s.lane i).entered slot (s.entryCell i before it) it.holdDwell)).raise (.entry i)).joinView slot it.content := rfl

/-- An entry changes lanes, items, counts and views, and raises ENTRY. -/
theorem State.enterItem_rest (s : State) (i : LaneId) (before slot : Nat) (it : Item) :
    s.enterItem i before slot it = { s with
      lanes := (s.enterItem i before slot it).lanes
      pool := { s.pool with items := (s.enterItem i before slot it).pool.items }
      symbols := (s.enterItem i before slot it).symbols, texts := (s.enterItem i before slot it).texts
      events := (s.raise (.entry i)).events } := by
  rw [State.enterItem_eq]
  cases it.content <;> rfl

theorem State.enterItem_lane (s : State) (i j : LaneId) (before slot : Nat) (it : Item) :
    (s.enterItem i before slot it).lane j =
      if i = j then (s.lane i).entered slot (s.entryCell i before it) it.holdDwell else s.lane j := by
  rw [State.enterItem_eq, State.lane_congr (State.joinView_lanes _ slot it.content) j, State.raise_lane, State.lane_setLane,
    State.updItem_lane]

theorem State.enterItem_item (hit : s.item? slot = some it) (i : LaneId) (before k : Nat) :
    (s.enterItem i before slot it).item? k =
      if k = slot then some { it with cell := some (s.entryCell i before it) } else s.item? k := by
  have : (s.enterItem i before slot it).item? k =
      (s.updItem slot fun x => { x with cell := some (s.entryCell i before it) }).item? k := by
    rw [State.enterItem_eq]; simp only [State.item?, State.joinView_pool]; rfl
  rw [this, State.item?_updItem, hit]
  rfl

theorem State.enterItem_symbol? (s : State) (i : LaneId) (before slot : Nat) (it : Item) (k : Nat) :
    (s.enterItem i before slot it).symbol? k = (s.symbol? k).map fun r =>
      if it.content.quotes k then { r with viewList := r.viewList ++ [slot] } else r := State.symbol?_joinView _ _ _ k

theorem State.enterItem_text? (s : State) (i : LaneId) (before slot : Nat) (it : Item) (k : Nat) :
    (s.enterItem i before slot it).text? k = (s.text? k).map fun r =>
      if it.content.captions k then { r with viewCount := r.viewCount + 1 } else r := State.text?_joinView _ _ _ k

theorem Face.advance_of_some {f : Face} {code : Byte} {g : Glyph} (h : tableFind f.glyphs code.toNat = some g) :
    f.advance code = if g.image.length = g.expected then g.advance else f.defaultAdvance := by
  unfold Face.advance Face.usable
  rw [h]
  by_cases hc : g.image.length = g.expected <;> simp [Glyph.complete, hc]

theorem Face.advance_of_none {f : Face} {code : Byte} (h : tableFind f.glyphs code.toNat = none) :
    f.advance code = f.defaultAdvance := by
  unfold Face.advance Face.usable
  rw [h]

/-- A QUOTE whose symbol shows no price cannot be formatted (R41). -/
theorem unformattable_iff (s : State) (c : Content) : s.unformattable c = true ↔
    ∃ code link, c = .quote code link ∧ ∀ q, s.symbol? link = some q → q.price = none := by
  cases c with
  | quote code link =>
    cases h : s.symbol? link with
    | none => simp [State.unformattable, State.quoteView, h]
    | some q => simp [State.unformattable, State.quoteView, h, SymbolRec.view]
  | text | mark => simp [State.unformattable]

/-! ### Entry, item by item (R38, R40, R41) -/

theorem Lane.mayEnter_iff (l : Lane) : l.mayEnter = true ↔
    ¬ (l.clearing = true ∨ l.travel < l.nextEntry ∨ 2 ^ 48 - 1 ≤ l.travel ∨ 64 ≤ l.visible.length) := by
  simp only [Lane.mayEnter, Bool.and_eq_true, Bool.not_eq_true', decide_eq_true_eq, not_or, Bool.not_eq_true, not_lt, not_le,
    and_assoc, ge_iff_le]
  rfl

end

section
variable {r : EntryRun} {i : LaneId} {before fuel slot : Nat} {rest : List Nat} {it : Item}

theorem enterItems_empty (h : (r.state.lane i).queued = []) : enterItems i before fuel r = r := enterItems_none (.inl h)

/-- Entry ends at an item that may not enter, or was passed over already. -/
theorem enterItems_ends (hq : (r.state.lane i).queued = slot :: rest)
    (h : (r.state.lane i).mayEnter = false ∨ slot ∈ r.passed) : enterItems i before (fuel + 1) r = r := by
  rw [enterItems, hq]
  simp only
  exact if_pos (by simpa using h)

theorem enterItems_formatted (hq : (r.state.lane i).queued = slot :: rest) (hm : (r.state.lane i).mayEnter = true)
    (hp : slot ∉ r.passed) (hit : r.state.item? slot = some it) (hf : r.state.unformattable it.content = false) :
    enterItems i before (fuel + 1) r = enterItems i before fuel { r with
      state := r.state.enterItem i before slot it, entered := r.entered ++ [r.state.pool.handle slot] } := by
  rw [enterItems, hq]
  simp [hm, hp, hit, hf]

theorem enterItems_blank (hq : (r.state.lane i).queued = slot :: rest) (hm : (r.state.lane i).mayEnter = true)
    (hp : slot ∉ r.passed) (hit : r.state.item? slot = some it) (hf : r.state.unformattable it.content = true)
    (hb : (r.state.lane i).setup.fault = .blank) :
    enterItems i before (fuel + 1) r = enterItems i before fuel { r with
      state := (r.state.raise (.formatFault i)).enterItem i before slot it
      entered := r.entered ++ [r.state.pool.handle slot] } := by
  rw [enterItems, hq]
  simp [hm, hp, hit, hf, hb]

theorem enterItems_skip (hq : (r.state.lane i).queued = slot :: rest) (hm : (r.state.lane i).mayEnter = true)
    (hp : slot ∉ r.passed) (hit : r.state.item? slot = some it) (hf : r.state.unformattable it.content = true)
    (hb : (r.state.lane i).setup.fault = .skip) :
    enterItems i before (fuel + 1) r = enterItems i before fuel { r with
      state := (r.state.raise (.formatFault i)).skipItem i slot it, passed := slot :: r.passed } := by
  rw [enterItems, hq]
  simp [hm, hp, hit, hf, hb]

/-- A lane's queued items, each once, allocated and without a cell: what entry needs of them to consider each once. -/
structure Waiting (s : State) (i : LaneId) (queue : List Nat) : Prop where
  queued : (s.lane i).queued = queue
  once : ((s.lane i).visible ++ queue).Nodup
  rising : tableRising s.pool.items = true
  items : ∀ k ∈ queue, ∃ it, s.item? k = some it ∧ it.lane = i ∧ it.cell = none

theorem State.ListsAgree.waiting {s : State} (h : s.ListsAgree) (i : LaneId) : Waiting s i (s.lane i).queued :=
  ⟨rfl, h.once i, h.rising, h.queued i⟩

/-- Entry has come to its end: the lane is shut, nothing is queued, or the front item was passed over. -/
def EntryRun.AtEnd (r : EntryRun) (i : LaneId) : Prop :=
  (r.state.lane i).mayEnter = false ∨ (r.state.lane i).queued = [] ∨
    ∃ slot rest, (r.state.lane i).queued = slot :: rest ∧ slot ∈ r.passed

end

section
variable {s : State} {i : LaneId} {before slot : Nat} {queue : List Nat} {it : Item}

/-- The other queued items are as before. -/
theorem Waiting.others (h : Waiting s i (slot :: queue)) {t : State} (ht : ∀ k, k ≠ slot → t.item? k = s.item? k) :
    ∀ k ∈ queue, ∃ it, t.item? k = some it ∧ it.lane = i ∧ it.cell = none := fun k hk => by
  have hne : k ≠ slot := by
    rintro rfl
    exact (List.nodup_cons.mp (List.nodup_append.mp h.once).2.1).1 hk
  rw [ht k hne]
  exact h.items k (List.mem_cons_of_mem _ hk)

theorem Waiting.raise (h : Waiting s i queue) (f : Factor) : Waiting (s.raise f) i queue :=
  ⟨h.queued, h.once, h.rising, h.items⟩

theorem Waiting.not_visible (h : Waiting s i (slot :: queue)) : slot ∉ (s.lane i).visible := fun hv =>
  (List.nodup_append.mp h.once).2.2 slot hv slot (by simp) rfl

theorem Waiting.enter (h : Waiting s i (slot :: queue)) (hit : s.item? slot = some it) (before : Nat) :
    Waiting (s.enterItem i before slot it) i queue := by
  have hlane : (s.enterItem i before slot it).lane i = (s.lane i).entered slot (s.entryCell i before it) it.holdDwell := by
    rw [State.enterItem_lane, if_pos rfl]
  refine ⟨?_, ?_, ?_, h.others fun k hk => by rw [State.enterItem_item hit, if_neg hk]⟩
  · rw [hlane, Lane.entered, h.queued]; simp
  · rw [hlane, Lane.entered]
    simpa using h.once
  · have : (s.enterItem i before slot it).pool.items =
        tableUpdate s.pool.items slot fun x => { x with cell := some (s.entryCell i before it) } := by
      rw [State.enterItem_eq, State.joinView_pool]; rfl
    rw [this, tableRising_update]
    exact h.rising

theorem Waiting.skip_last (h : Waiting s i (slot :: queue)) (hit : s.item? slot = some it) (hp : it.passes = 1) :
    Waiting (s.skipItem i slot it) i queue := by
  obtain ⟨it', hit', rfl, hc⟩ := h.items slot (by simp)
  obtain rfl := Option.some.inj (hit.symm.trans hit')
  have hfree := Lane.dropItem_queueHead h.queued h.not_visible
  rw [State.skipItem_last hit hc hp (Lane.dropItem_queueHead_twice h.queued
    (List.nodup_cons.mp (List.nodup_append.mp h.once).2.1).1 h.not_visible)]
  refine Waiting.raise ⟨?_, ?_, State.freeItem_rising h.rising slot,
    h.others fun k hk => by rw [State.freeItem_item h.rising, if_neg hk]⟩ _
  · rw [State.freeItem_lane_eq hit, if_pos rfl, hfree]
  · rw [State.freeItem_lane_eq hit, if_pos rfl, hfree]
    exact h.once.sublist (List.Sublist.append_left (List.sublist_cons_self slot queue) _)

theorem Waiting.skip_again (h : Waiting s i (slot :: queue)) (hit : s.item? slot = some it) (hp : it.passes ≠ 1) :
    Waiting (s.skipItem i slot it) i (queue ++ [slot]) := by
  obtain ⟨it', hit', hi, hc⟩ := h.items slot (by simp)
  obtain rfl := Option.some.inj (hit.symm.trans hit')
  rw [State.skipItem_again hit hp, Lane.requeue_queueHead h.queued h.not_visible]
  have hitem (k : Nat) := s.item?_updItem slot k fun it => { it with passes := it.passes - 1 }
  refine ⟨by simp, ?_, (tableRising_update _).trans h.rising, fun k hk => ?_⟩
  · rw [State.lane_setLane_same]
    exact (List.Perm.append_left _ (List.perm_append_singleton slot queue)).nodup_iff.mpr h.once
  · rcases List.mem_append.mp hk with hk | hk
    · exact h.others (fun k hne => (hitem k).trans (if_neg hne)) k hk
    · obtain rfl := List.mem_singleton.mp hk
      exact ⟨{ it with passes := it.passes - 1 }, by rw [State.setLane_item, hitem, if_pos rfl, hit]; rfl, hi, hc⟩

end

/-- Nothing but items passed over is queued any more. -/
theorem EntryRun.atEnd_of_passed {i : LaneId} {r : EntryRun} {back : List Nat} (h : (r.state.lane i).queued = back)
    (hback : ∀ k ∈ back, k ∈ r.passed) : r.AtEnd i := by
  cases back with
  | nil => exact .inr (.inl h)
  | cons k back => exact .inr (.inr ⟨k, back, h, hback k (by simp)⟩)

/-- Entry considers each item that waits at most once, so fuel for the items not yet considered brings it to its end. -/
theorem enterItems_atEnd {i : LaneId} {before : Nat} (fuel : Nat) (fresh back : List Nat) (r : EntryRun)
    (h : Waiting r.state i (fresh ++ back)) (hback : ∀ k ∈ back, k ∈ r.passed) (hfuel : fresh.length ≤ fuel) :
    (enterItems i before fuel r).AtEnd i := by
  induction fuel generalizing fresh back r with
  | zero =>
    obtain rfl := List.length_eq_zero_iff.mp (Nat.le_zero.mp hfuel)
    exact EntryRun.atEnd_of_passed h.queued hback
  | succ fuel ih =>
    by_cases hend : r.AtEnd i
    · rcases hend with hm | hq | ⟨slot, rest, hq, hp⟩
      · rw [enterItems_none (.inr hm)]; exact .inl hm
      · rw [enterItems_empty hq]; exact .inr (.inl hq)
      · rw [enterItems_ends hq (.inr hp)]; exact .inr (.inr ⟨slot, rest, hq, hp⟩)
    cases fresh with
    | nil => exact absurd (EntryRun.atEnd_of_passed h.queued hback) hend
    | cons slot fresh =>
      rw [List.cons_append] at h
      have hq := h.queued
      have hm : (r.state.lane i).mayEnter = true := Bool.eq_true_of_not_eq_false fun hm => hend (.inl hm)
      have hp : slot ∉ r.passed := fun hp => hend (.inr (.inr ⟨slot, _, hq, hp⟩))
      have hlen : fresh.length ≤ fuel := Nat.le_of_succ_le_succ hfuel
      obtain ⟨it, hit, -, -⟩ := h.items slot (by simp)
      cases hf : r.state.unformattable it.content with
      | false =>
        rw [enterItems_formatted hq hm hp hit hf]
        exact ih fresh back _ (h.enter hit before) hback hlen
      | true =>
        have hraise := h.raise (.formatFault i)
        cases hb : (r.state.lane i).setup.fault with
        | blank =>
          rw [enterItems_blank hq hm hp hit hf hb]
          exact ih fresh back _ (hraise.enter hit before) hback hlen
        | skip =>
          rw [enterItems_skip hq hm hp hit hf hb]
          by_cases hlast : it.passes = 1
          · exact ih fresh back _ (hraise.skip_last hit hlast) (fun k hk => List.mem_cons_of_mem _ (hback k hk)) hlen
          · refine ih fresh (back ++ [slot]) _ (List.append_assoc fresh back [slot] ▸ hraise.skip_again hit hlast)
              (fun k hk => ?_) hlen
            rcases List.mem_append.mp hk with hk | hk
            · exact List.mem_cons_of_mem _ (hback k hk)
            · rw [List.mem_singleton.mp hk]; exact List.mem_cons_self

/-! ### The parts of O31 -/

/-- The lane lets no item enter: it clears, is short of its next entry travel or at the largest travel, or is full (R38). -/
def Lane.Shut (l : Lane) : Prop :=
  l.clearing = true ∨ l.travel < l.nextEntry ∨ 2 ^ 48 - 1 ≤ l.travel ∨ 64 ≤ l.visible.length

theorem Lane.shut_iff (l : Lane) : l.Shut ↔ l.mayEnter = false := by
  rw [← Bool.not_eq_true, Lane.mayEnter_iff, not_not]; rfl

section
variable {s : State} {i : LaneId} {before slot : Nat} {rest : List Nat} {it : Item}

theorem foldl_holdTarget (l : Lane) (entry : Nat) (dwell : Option Nat) (ts : List Target) :
    (holdTarget l entry dwell).foldl (fun ts t => insertTarget t ts) ts = match dwell with
      | some d => if entry + (l.setup.width - l.setup.holdPos) * 64 ≤ 2 ^ 48 - 1 then
          insertTarget { travel := entry + (l.setup.width - l.setup.holdPos) * 64, kind := .hold d } ts else ts
      | none => ts := by
  cases dwell with
  | none => rfl
  | some d =>
    by_cases h : entry + (l.setup.width - l.setup.holdPos) * 64 ≤ 2 ^ 48 - 1
    · exact (congrArg _ (if_pos h)).trans (if_pos h).symm
    · exact (congrArg _ (if_neg h)).trans (if_neg h).symm

theorem State.entryCell_shows (s : State) (before : Nat) {x : Rendering} {y : Style} {w : Nat}
    (h : s.formatEntry i it.content = (x, y, w)) : (s.entryCell i before it).rendering = x ∧
      (s.entryCell i before it).style = y ∧ (s.entryCell i before it).width = max (max w it.minWidth) 1 := by
  simp only [State.entryCell, h, and_self]

/-- What an entering QUOTE shows (R103, R104, R106). -/
theorem State.formatEntry_quote {code : SymCode} {link : Nat} {q : SymbolRec} (h : s.symbol? link = some q) (i : LaneId) :
    s.formatEntry i (.quote code link) = (.quote (renderQuote (s.laneTemplate i) q.view), q.view.style,
      quoteWidth (s.laneFace i) (renderQuote (s.laneTemplate i) q.view)) := by
  simp only [State.formatEntry, State.quoteView, h]

/-- What an entering TEXT shows. -/
theorem State.formatEntry_text {id : Nat} {x : TextRec} (h : s.text? id = some x) (i : LaneId) :
    s.formatEntry i (.text id) = (.text id, .ink, textWidth (s.laneFace i) x.codes) := by
  simp only [State.formatEntry, h, Option.map_some, Option.getD_some]

/-- What an entering MARK shows. -/
theorem State.formatEntry_mark (s : State) (i : LaneId) (code : Byte) :
    s.formatEntry i (.mark code) = (.mark code, .ink, (s.laneFace i).advance code) := rfl

end

/-- Settles O31: entry ends by `enterItems_atEnd`; an item enters with its `entryCell`, and one passed over or retired is
disposed of by its passes (`skipItem_last`, `skipItem_again`, `retire_last`, `retire_again`). -/
theorem itemsEnterAndRetireByTheTravel : Obligations.ItemsEnterAndRetireByTheTravel := by
  unfold Obligations.ItemsEnterAndRetireByTheTravel
  intro shut
  refine ⟨fun s i before hl => ⟨rfl, ?_⟩, fun r i before fuel hq => enterItems_empty hq,
    fun r i before fuel slot rest it => ?_, fun s i hv => ?_, fun s i slot rest it c => ?_⟩
  · have hend := enterItems_atEnd (before := before) (s.lane i).queued.length (s.lane i).queued []
      { state := s, entered := [], passed := [] } (by simpa using hl.waiting i) (by simp) le_rfl
    exact hend.imp_left (Lane.shut_iff _).mpr
  · intro s l hq hrest hvis hit hi hc
    refine ⟨fun h => enterItems_ends hq (h.imp_left (Lane.shut_iff l).mp), fun hopen hp => ?_⟩
    have hm : l.mayEnter = true := (Lane.mayEnter_iff l).mpr hopen
    intro unpriced face advance entry hold enters skips
    have hadv (code : Byte) : face.advance code = advance code := by
      unfold advance
      cases h : tableFind face.glyphs code.toNat with
      | none => exact Face.advance_of_none h
      | some g => exact Face.advance_of_some h
    have entered (e : EventUnit) (hstep : enterItems i before (fuel + 1) r = enterItems i before fuel { r with
        state := State.enterItem { s with events := e } i before slot it
        entered := r.entered ++ [s.pool.generation slot * 2048 + slot] }) : enters { s with events := e } := by
      let told : State := { s with events := e }
      have drawn {n m : Nat} (h : n = m) : max (max n it.minWidth) 1 = max (max m it.minWidth) 1 := by rw [h]
      have hwidth (fields : List RenderedField) : quoteWidth face fields =
          ((fields.flatMap RenderedField.entries).map fun | .glyph code => advance code | .gap w => w).sum := by
        refine congrArg List.sum (List.map_congr_left fun x _ => ?_)
        cases x with
        | glyph code => exact hadv code
        | gap w => rfl
      refine ⟨told.enterItem i before slot it, told.entryCell i before it, hstep, told.enterItem_rest i before slot it, ?_,
        fun j hj => ?_, State.enterItem_item (s := told) hit i before, rfl, rfl, rfl, rfl, fun code link q hc hsym => ?_,
        fun id x hc htext => ?_, fun code hc => ?_, fun k => ?_, fun id => ?_⟩
      · rw [State.enterItem_lane, if_pos rfl]
        change Lane.entered l slot _ it.holdDwell = _
        rw [Lane.entered, hq, List.erase_cons_head, foldl_holdTarget]
        rfl
      · rw [State.enterItem_lane, if_neg (Ne.symm hj)]
        rfl
      · obtain ⟨hr, hs, hw⟩ := told.entryCell_shows before (hc ▸ State.formatEntry_quote hsym i)
        exact ⟨hr, hs, hw.trans (drawn (hwidth _))⟩
      · obtain ⟨hr, hs, hw⟩ := told.entryCell_shows before (hc ▸ State.formatEntry_text htext i)
        exact ⟨hr, hs, hw.trans (drawn (congrArg List.sum (List.map_congr_left fun code _ => hadv code)))⟩
      · obtain ⟨hr, hs, hw⟩ := told.entryCell_shows before (hc ▸ told.formatEntry_mark i code)
        exact ⟨hr, hs, hw.trans (drawn (hadv code))⟩
      · rw [State.enterItem_symbol?]
        cases it.content <;> simp <;> rfl
      · rw [State.enterItem_text?]
        simp only [Content.captions, decide_eq_true_eq]
        rfl
    have hfault (hun : unpriced) : s.unformattable it.content = true := (unformattable_iff s it.content).mpr hun
    refine ⟨fun hpriced => entered s.events (enterItems_formatted hq hm hp hit ?_),
      fun hun hb => entered (s.events.record (.formatFault i)) (enterItems_blank hq hm hp hit (hfault hun) hb),
      fun hun hb => ⟨fun hlast => ?_, fun hagain => ?_⟩⟩
    · exact Bool.eq_false_iff.mpr fun h => hpriced ((unformattable_iff s it.content).mp h)
    · subst hi
      refine (enterItems_skip hq hm hp hit (hfault hun) hb).trans ?_
      rw [State.skipItem_last (s := s.raise (.formatFault it.lane)) hit hc hlast
        (Lane.dropItem_queueHead_twice hq hrest hvis)]
    · refine (enterItems_skip hq hm hp hit (hfault hun) hb).trans ?_
      rw [State.skipItem_again (s := s.raise (.formatFault i)) hit hagain, State.raise_lane, Lane.requeue_queueHead hq hvis]
  · rw [State.retirePart, hv]; rfl
  · intro l hv hrest hq hit hi hc
    have hhead := retirePart_head hv hit hc
    have hn : it.cell ≠ none := by simp [hc]
    refine ⟨fun hshort => ?_, fun hcross => ⟨fun hp => ?_, fun hp => ?_⟩⟩
    · rw [hhead, if_neg fun h => absurd ((hasCrossed_iff l c).mp h) (not_le.mpr hshort)]
    · rw [hhead, if_pos ((hasCrossed_iff l c).mpr hcross)]
      subst hi
      rw [State.retire_last hit hn hp (Lane.dropItem_visibleHead_twice hv hrest hq)]
      refine retireFrom_rest ?_
      rw [State.raise_lane, State.freeItem_lane_eq hit, if_pos rfl, Lane.dropItem_visibleHead hv hq]
    · rw [hhead, if_pos ((hasCrossed_iff l c).mpr hcross), State.retire_again hit hp, Lane.requeue_visibleHead hv hq]
      refine ⟨_, retireFrom_rest (by rw [State.lane_setLane_same]), ?_, State.lane_setLane_same _ i _, fun j hj => ?_,
        fun k => ?_, fun k => ?_, fun id => ?_, fun hq => ?_, fun hq => ?_⟩
      · rw [State.leaveView_rest]; rfl
      · rw [State.lane_setLane_ne _ (Ne.symm hj), State.updItem_lane]
        exact State.lane_congr (s.leaveView_lanes slot it.content) j
      · rw [State.setLane_item, State.item?_updItem]
        simp only [State.item?, State.leaveView_pool]
        rw [show tableFind s.pool.items slot = some it from hit]
        rfl
      · refine (State.symbol?_leaveView s it.content slot k).trans ?_
        cases it.content <;> simp
      · refine (State.text?_leaveView s it.content slot id).trans ?_
        simp [Content.captions]
      · refine (State.leaveView_formatter s it.content slot).trans (if_neg fun h => ?_)
        obtain ⟨code, link, h⟩ := (Content.isQuote_iff _).mp h
        exact hq code link h
      · exact (State.leaveView_formatter s it.content slot).trans (if_pos ((Content.isQuote_iff _).mpr hq))

end Sys2Proof.Machine

namespace Sys2Proof.Machine

/-! ### Counting the records of a table -/

section
variable {α : Type} {t : Table α} {k : Nat} {v : α}

theorem countP_tableUpdate (f : α → α) (h : tableFind t k = some v) (p : Nat × α → Bool) :
    (tableUpdate t k f).countP p + (p (k, v)).toNat = t.countP p + (p (k, f v)).toNat := by
  induction t with
  | nil => cases h
  | cons q t ih =>
    obtain ⟨j, w⟩ := q
    by_cases hj : j = k
    · obtain rfl : w = v := by simpa [tableFind, hj] using h
      subst hj
      simp only [tableUpdate, if_pos, List.countP_cons]
      cases p (j, w) <;> cases p (j, f w) <;> simp
    · have := ih (by simpa [tableFind, hj] using h)
      simp only [tableUpdate, if_neg hj, List.countP_cons]
      omega

theorem countP_tableErase (h : tableFind t k = some v) (p : Nat × α → Bool) :
    (tableErase t k).countP p + (p (k, v)).toNat = t.countP p := by
  induction t with
  | nil => cases h
  | cons q t ih =>
    obtain ⟨j, w⟩ := q
    by_cases hj : j = k
    · obtain rfl : w = v := by simpa [tableFind, hj] using h
      subst hj
      simp only [tableErase, if_pos, List.countP_cons]
      cases p (j, w) <;> simp
    · have := ih (by simpa [tableFind, hj] using h)
      simp only [tableErase, if_neg hj, List.countP_cons]
      omega

theorem countP_tablePut (v : α) (h : tableFind t k = none) (p : Nat × α → Bool) :
    (tablePut t k v).countP p = t.countP p + (p (k, v)).toNat := by
  induction t with
  | nil => cases hp : p (k, v) <;> simp [tablePut, hp]
  | cons q t ih =>
    obtain ⟨j, w⟩ := q
    have hj : j ≠ k := by
      rintro rfl
      simp [tableFind] at h
    have := ih (by simpa [tableFind, hj] using h)
    by_cases hlt : k < j
    · simp only [tablePut, if_neg hj, if_pos hlt, List.countP_cons]
      cases p (k, v) <;> simp
    · simp only [tablePut, if_neg hj, if_neg hlt, List.countP_cons]
      omega

end

/-! ### The agreement of items, symbols, texts and refreshes, in counts of items -/

/-- The item names the symbol in a slot of the table (R43). -/
def Item.names (link : Nat) (it : Item) : Bool := it.content.quotes link

/-- The item is a visible QUOTE of the symbol in a slot of the table (R90). -/
def Item.shows (link : Nat) (it : Item) : Bool := it.content.quotes link && it.cell.isSome

/-- The item names the text of an id (R43). -/
def Item.captions (id : Nat) (it : Item) : Bool := it.content.captions id

/-- The item is a visible TEXT of an id (R116). -/
def Item.displays (id : Nat) (it : Item) : Bool := it.content.captions id && it.cell.isSome

/-- The item is a visible QUOTE (R107). -/
def Item.showsQuote (it : Item) : Bool := it.content.isQuote && it.cell.isSome

/-- The items of the pool with a property, counted. -/
def State.count (s : State) (p : Item → Bool) : Nat := s.pool.items.countP fun x => p x.2

/-- A rendering is one of a content (R33). -/
def Content.RendersAs : Content → Rendering → Prop
  | .quote _ _, x => ∃ fields, x = .quote fields
  | .text id, x => x = .text id
  | .mark code, x => x = .mark code

/-- An item names a symbol or text that is there, and its cell renders what it shows (R32, R33). -/
structure State.Fits (s : State) (it : Item) : Prop where
  symbol : ∀ code link, it.content = .quote code link → ∃ r, s.symbol? link = some r ∧ r.code = code
  text : ∀ id, it.content = .text id → (s.text? id).isSome = true
  cell : ∀ c, it.cell = some c → it.content.RendersAs c.rendering

/-- `State.ReferencesAgree`, in counts of items with a property. -/
structure State.Refs (s : State) : Prop where
  symbols : tableRising s.symbols = true
  texts : tableRising s.texts = true
  fits : ∀ k it, s.item? k = some it → s.Fits it
  named : ∀ link r, s.symbol? link = some r → r.refCount = s.count (Item.names link)
  views : ∀ link r, s.symbol? link = some r → r.viewList.Nodup ∧
    ∀ k, k ∈ r.viewList ↔ (s.item? k).any (Item.shows link) = true
  captioned : ∀ id r, s.text? id = some r → r.refCount = s.count (Item.captions id)
  displayed : ∀ id r, s.text? id = some r → r.viewCount = s.count (Item.displays id)
  once : s.formatter.queue.Nodup
  queue : ∀ k ∈ s.formatter.queue, (s.item? k).any Item.showsQuote = true
  inFlight : ∀ f, s.formatter.inFlight = some f → f.discarded = false → (s.item? f.item).any Item.showsQuote = true

section
variable {s t : State} {k link : Nat}

theorem any_eq_true_iff {α : Type} {o : Option α} {p : α → Bool} : o.any p = true ↔ ∃ a, o = some a ∧ p a = true := by
  cases o <;> simp

theorem Content.quotes_iff {c : Content} : c.quotes link = true ↔ ∃ code, c = .quote code link := by
  cases c with
  | quote code k =>
    rw [Content.quotes_quote, decide_eq_true_iff]
    exact ⟨fun h => ⟨code, h ▸ rfl⟩, fun ⟨_, h⟩ => (Content.quote.inj h).2.symm⟩
  | text | mark => simp

theorem showsQuote_iff : s.ShowsQuote k link ↔ (s.item? k).any (Item.shows link) = true := by
  rw [any_eq_true_iff]
  constructor
  · rintro ⟨it, code, hit, hc, hv⟩
    exact ⟨it, hit, by simp [Item.shows, hc, hv]⟩
  · rintro ⟨it, hit, h⟩
    rw [Item.shows, Bool.and_eq_true] at h
    obtain ⟨code, hc⟩ := Content.quotes_iff.mp h.1
    exact ⟨it, code, hit, hc, h.2⟩

theorem exists_showsQuote_iff : (∃ link, s.ShowsQuote k link) ↔ (s.item? k).any Item.showsQuote = true := by
  rw [any_eq_true_iff]
  constructor
  · rintro ⟨link, it, code, hit, hc, hv⟩
    exact ⟨it, hit, by simp [Item.showsQuote, hc, hv]⟩
  · rintro ⟨it, hit, h⟩
    rw [Item.showsQuote, Bool.and_eq_true] at h
    obtain ⟨code, link, hc⟩ := (Content.isQuote_iff _).mp h.1
    exact ⟨link, it, code, hit, hc, h.2⟩

theorem count_names (s : State) (link : Nat) : (s.pool.items.countP fun (_, it) =>
    match it.content with | .quote _ k => decide (k = link) | _ => false) = s.count (Item.names link) := by
  refine List.countP_congr fun x _ => ?_
  obtain ⟨k, it⟩ := x
  cases hc : it.content <;> simp [Item.names, hc, eq_comm]

theorem State.ReferencesAgree.refs (h : s.ReferencesAgree) : s.Refs where
  symbols := h.symbols
  texts := h.texts
  fits k it hit := ⟨fun code link => h.quotes k it code link hit, fun id => h.captions k it id hit, fun c hc => by
    have := h.cells k it c hit hc
    cases hcon : it.content <;> rw [hcon] at this <;> exact this⟩
  named link r hr := (h.symbolCount link r hr).trans (count_names s link)
  views link r hr := ⟨(h.views link r hr).1, fun k => ((h.views link r hr).2 k).trans showsQuote_iff⟩
  captioned := h.textCount
  displayed := h.inView
  once := h.once
  queue k hk := exists_showsQuote_iff.mp (h.queue k hk)
  inFlight f hf hd := exists_showsQuote_iff.mp (h.inFlight f hf hd)

theorem State.Refs.referencesAgree (h : s.Refs) : s.ReferencesAgree where
  symbols := h.symbols
  texts := h.texts
  quotes k it code link hit := (h.fits k it hit).symbol code link
  captions k it id hit := (h.fits k it hit).text id
  cells k it c hit hc := by
    have := (h.fits k it hit).cell c hc
    cases hcon : it.content <;> rw [hcon] at this <;> exact this
  symbolCount link r hr := (h.named link r hr).trans (count_names s link).symm
  textCount := h.captioned
  inView := h.displayed
  views link r hr := ⟨(h.views link r hr).1, fun k => ((h.views link r hr).2 k).trans showsQuote_iff.symm⟩
  once := h.once
  queue k hk := exists_showsQuote_iff.mpr (h.queue k hk)
  inFlight f hf hd := exists_showsQuote_iff.mpr (h.inFlight f hf hd)

/-- An item with a property is counted. -/
theorem State.count_pos {it : Item} {p : Item → Bool} (hit : s.item? k = some it) (hp : p it = true) : 0 < s.count p :=
  List.countP_pos_iff.mpr ⟨(k, it), mem_of_tableFind hit, hp⟩

theorem State.exists_of_count (hr : tableRising s.pool.items = true) {p : Item → Bool} (h : s.count p ≠ 0) :
    ∃ k it, s.item? k = some it ∧ p it = true := by
  obtain ⟨⟨k, it⟩, hmem, hp⟩ := List.countP_pos_iff.mp (Nat.pos_of_ne_zero h)
  exact ⟨k, it, (tableFind_iff_mem hr).mpr hmem, hp⟩

end

/-! ### One item rewritten -/

/-- A view list as one item comes into view or leaves it (R90). -/
def moveView (k : Nat) (was now : Bool) (views : List Nat) : List Nat :=
  if now then (if was then views else views ++ [k]) else if was then views.erase k else views

/-- t is s with the record of slot k rewritten, the item in it being o afterwards (none for a free slot), and with the counts
of symbols and texts, the view lists and the refreshes that follow from it (R43, R90, R109, R116). -/
structure Rewrites (k : Nat) (o : Option Item) (s t : State) : Prop where
  rising : tableRising t.pool.items = true
  item : ∀ j, t.item? j = if j = k then o else s.item? j
  count : ∀ p, t.count p + ((s.item? k).any p).toNat = s.count p + (o.any p).toNat
  symbols : tableRising t.symbols = tableRising s.symbols
  texts : tableRising t.texts = tableRising s.texts
  symbol : ∀ link, t.symbol? link = (s.symbol? link).map fun r =>
    { r with
      refCount := r.refCount + (o.any (Item.names link)).toNat - ((s.item? k).any (Item.names link)).toNat
      viewList := moveView k ((s.item? k).any (Item.shows link)) (o.any (Item.shows link)) r.viewList }
  text : ∀ id, t.text? id = (s.text? id).map fun r =>
    { r with
      refCount := r.refCount + (o.any (Item.captions id)).toNat - ((s.item? k).any (Item.captions id)).toNat
      viewCount := r.viewCount + (o.any (Item.displays id)).toNat - ((s.item? k).any (Item.displays id)).toNat }
  formatter : t.formatter =
    if (s.item? k).any Item.showsQuote && !o.any Item.showsQuote then s.formatter.without k else s.formatter

section
variable {s t : State} {k : Nat} {o : Option Item}

@[simp] theorem moveView_self (k : Nat) (b : Bool) (views : List Nat) : moveView k b b views = views := by
  cases b <;> rfl

theorem mem_moveView {k j : Nat} {was now : Bool} {views : List Nat} (hn : views.Nodup) (hw : k ∈ views ↔ was = true) :
    j ∈ moveView k was now views ↔ if j = k then now = true else j ∈ views := by
  have hk : k ∉ views.erase k := hn.not_mem_erase
  unfold moveView
  by_cases hj : j = k
  · subst hj
    cases now <;> cases was <;> simp_all
  · cases now <;> cases was <;> simp [hj, List.mem_erase_of_ne]

theorem nodup_moveView {k : Nat} {was now : Bool} {views : List Nat} (hn : views.Nodup) (hw : k ∈ views ↔ was = true) :
    (moveView k was now views).Nodup := by
  unfold moveView
  cases now <;> cases was
  · simpa using hn
  · simpa using hn.erase k
  · simp only [if_true, Bool.false_eq_true, if_false]
    exact List.nodup_append.mpr ⟨hn, List.nodup_singleton k, fun a ha b hb => by
      rw [List.mem_singleton.mp hb]; rintro rfl; exact absurd (hw.mp ha) (by simp)⟩
  · simpa using hn

theorem Rewrites.symbol_some (w : Rewrites k o s t) {link : Nat} {r' : SymbolRec} (h : t.symbol? link = some r') :
    ∃ r, s.symbol? link = some r ∧
      r'.refCount = r.refCount + (o.any (Item.names link)).toNat - ((s.item? k).any (Item.names link)).toNat ∧
      r'.viewList = moveView k ((s.item? k).any (Item.shows link)) (o.any (Item.shows link)) r.viewList := by
  rw [w.symbol] at h
  obtain ⟨r, hr, rfl⟩ := Option.map_eq_some_iff.mp h
  exact ⟨r, hr, rfl, rfl⟩

theorem Rewrites.text_some (w : Rewrites k o s t) {id : Nat} {r' : TextRec} (h : t.text? id = some r') :
    ∃ r, s.text? id = some r ∧
      r'.refCount = r.refCount + (o.any (Item.captions id)).toNat - ((s.item? k).any (Item.captions id)).toNat ∧
      r'.viewCount = r.viewCount + (o.any (Item.displays id)).toNat - ((s.item? k).any (Item.displays id)).toNat := by
  rw [w.text] at h
  obtain ⟨r, hr, rfl⟩ := Option.map_eq_some_iff.mp h
  exact ⟨r, hr, rfl, rfl⟩

/-- What fits keeps fitting, since no symbol and no text is gone. -/
theorem Rewrites.fits (w : Rewrites k o s t) {it : Item} (h : s.Fits it) : t.Fits it where
  symbol code link hc := by
    obtain ⟨r, hr, hcode⟩ := h.symbol code link hc
    have e := w.symbol link
    rw [hr, Option.map_some] at e
    exact ⟨_, e, hcode⟩
  text id hc := by rw [w.text, Option.isSome_map]; exact h.text id hc
  cell := h.cell

theorem State.Refs.rewrite (h : s.Refs) (w : Rewrites k o s t) (hfit : ∀ it, o = some it → s.Fits it) : t.Refs := by
  have shown (j : Nat) (p : Item → Bool) : (t.item? j).any p = if j = k then o.any p else (s.item? j).any p := by
    rw [w.item]; split <;> rfl
  refine ⟨w.symbols.trans h.symbols, w.texts.trans h.texts, fun j it hit => ?_, fun link r' hr' => ?_, fun link r' hr' => ?_,
    fun id r' hr' => ?_, fun id r' hr' => ?_, ?_, fun j hj => ?_, fun f hf hd => ?_⟩
  · rw [w.item] at hit
    split at hit
    · exact w.fits (hfit it hit)
    · exact w.fits (h.fits j it hit)
  · obtain ⟨r, hr, hcount, -⟩ := w.symbol_some hr'
    have := h.named link r hr
    have := w.count (Item.names link)
    omega
  · obtain ⟨r, hr, -, hviews⟩ := w.symbol_some hr'
    obtain ⟨hn, hmem⟩ := h.views link r hr
    refine ⟨hviews ▸ nodup_moveView hn (hmem k), fun j => ?_⟩
    rw [hviews, mem_moveView hn (hmem k), shown]
    split
    · rfl
    · exact hmem j
  · obtain ⟨r, hr, hcount, -⟩ := w.text_some hr'
    have := h.captioned id r hr
    have := w.count (Item.captions id)
    omega
  · obtain ⟨r, hr, -, hcount⟩ := w.text_some hr'
    have := h.displayed id r hr
    have := w.count (Item.displays id)
    omega
  · rw [w.formatter]
    split
    · exact h.once.erase k
    · exact h.once
  · rw [w.formatter] at hj
    rw [shown]
    split at hj
    · have hne : j ≠ k := fun e => h.once.not_mem_erase (e ▸ hj)
      rw [if_neg hne]
      exact h.queue j (List.mem_of_mem_erase hj)
    · rename_i hstays
      have hq := h.queue j hj
      split
      · rename_i e; subst e; simpa [hq] using hstays
      · exact hq
  · rw [w.formatter] at hf
    rw [shown]
    split at hf
    · obtain ⟨f', hf', rfl⟩ := Option.map_eq_some_iff.mp hf
      by_cases he : f'.item = k
      · simp [he] at hd
      · simp only [if_neg he] at hd ⊢
        exact h.inFlight f' hf' hd
    · rename_i hstays
      have hq := h.inFlight f hf hd
      split
      · rename_i e; rw [e] at hq; simpa [hq] using hstays
      · exact hq

end

end Sys2Proof.Machine

namespace Sys2Proof.Machine

/-! ### Run lists as the items have it -/

/-- The item is one of the visible items of a lane. -/
def Item.onScreen (j : LaneId) (it : Item) : Bool := decide (it.lane = j) && it.cell.isSome

/-- The item is one of the queued items of a lane. -/
def Item.waits (j : LaneId) (it : Item) : Bool := decide (it.lane = j) && it.cell.isNone

/-- `State.ListsAgree`, with the places in the run lists read off the items. -/
structure State.Lists (s : State) : Prop where
  rising : tableRising s.pool.items = true
  slots : ∀ k it, s.item? k = some it → k < Config.itemSlots
  once : ∀ j, ((s.lane j).visible ++ (s.lane j).queued).Nodup
  visible : ∀ j k, k ∈ (s.lane j).visible ↔ (s.item? k).any (Item.onScreen j) = true
  queued : ∀ j k, k ∈ (s.lane j).queued ↔ (s.item? k).any (Item.waits j) = true
  bare : ∀ j, (s.lane j).isBare = true → (s.lane j).visible = []
  off : ∀ j, (s.lane j).state = .off → (s.lane j).queued = []

section
variable {s t : State} {i : LaneId} {k : Nat} {o : Option Item}

theorem any_onScreen {j : LaneId} :
    o.any (Item.onScreen j) = true ↔ ∃ it, o = some it ∧ it.lane = j ∧ it.cell.isSome = true := by
  simp [any_eq_true_iff, Item.onScreen]

theorem any_waits {j : LaneId} : o.any (Item.waits j) = true ↔ ∃ it, o = some it ∧ it.lane = j ∧ it.cell = none := by
  simp [any_eq_true_iff, Item.waits]

theorem State.ListsAgree.lists (h : s.ListsAgree) : s.Lists where
  rising := h.rising
  slots := h.slots
  once := h.once
  visible j k := by
    rw [any_onScreen]
    refine ⟨h.visible j k, ?_⟩
    rintro ⟨it, hit, rfl, hc⟩
    refine (List.mem_append.mp (h.listed k it hit)).resolve_right fun hq => ?_
    obtain ⟨it', hit', -, hc'⟩ := h.queued _ k hq
    cases hit.symm.trans hit'
    simp [hc'] at hc
  queued j k := by
    rw [any_waits]
    refine ⟨h.queued j k, ?_⟩
    rintro ⟨it, hit, rfl, hc⟩
    refine (List.mem_append.mp (h.listed k it hit)).resolve_left fun hv => ?_
    obtain ⟨it', hit', -, hc'⟩ := h.visible _ k hv
    cases hit.symm.trans hit'
    simp [hc] at hc'
  bare := h.bare
  off := h.off

theorem State.Lists.listsAgree (h : s.Lists) : s.ListsAgree where
  rising := h.rising
  slots := h.slots
  once := h.once
  visible j k hk := any_onScreen.mp ((h.visible j k).mp hk)
  queued j k hk := any_waits.mp ((h.queued j k).mp hk)
  listed k it hit := by
    rw [List.mem_append, h.visible, h.queued, hit]
    cases hc : it.cell <;> simp [Item.onScreen, Item.waits, hc]
  bare := h.bare
  off := h.off

/-- The run list of lane i follows the item in slot k, which is o in t: for the other lanes and the other items, t has the
run lists of s. -/
structure Relists (k : Nat) (i : LaneId) (o : Option Item) (s t : State) : Prop where
  lane : ∀ j, j ≠ i → t.lane j = s.lane j
  own : ∀ it, s.item? k = some it → it.lane = i
  placed : ∀ it, o = some it → it.lane = i ∧ k < Config.itemSlots
  once : ((t.lane i).visible ++ (t.lane i).queued).Nodup
  visible : ∀ j, j ∈ (t.lane i).visible ↔ if j = k then o.any (Item.onScreen i) = true else j ∈ (s.lane i).visible
  queued : ∀ j, j ∈ (t.lane i).queued ↔ if j = k then o.any (Item.waits i) = true else j ∈ (s.lane i).queued
  bare : (t.lane i).isBare = true → (t.lane i).visible = []
  off : (t.lane i).state = .off → (t.lane i).queued = []

/-- An item of lane i stands in no run list of another lane. -/
theorem any_of_other_lane {j : LaneId} {p : Item → Bool} (ho : ∀ it, o = some it → it.lane = i) (hj : j ≠ i)
    (hp : ∀ it, p it = true → it.lane = j) : ¬ o.any p = true := by
  rw [any_eq_true_iff]
  rintro ⟨it, rfl, h⟩
  exact hj ((hp it h).symm.trans (ho it rfl))

theorem Item.lane_of_onScreen {j : LaneId} {it : Item} (h : it.onScreen j = true) : it.lane = j := by
  simp [Item.onScreen] at h; exact h.1

theorem Item.lane_of_waits {j : LaneId} {it : Item} (h : it.waits j = true) : it.lane = j := by
  simp [Item.waits] at h; exact h.1

theorem State.Lists.relist (h : s.Lists) (w : Rewrites k o s t) (r : Relists k i o s t) : t.Lists := by
  have place (p : LaneId → Item → Bool) (hp : ∀ j it, p j it = true → it.lane = j) (l : Lane → List Nat)
      (hs : ∀ j x, x ∈ l (s.lane j) ↔ (s.item? x).any (p j) = true)
      (ht : ∀ x, x ∈ l (t.lane i) ↔ if x = k then o.any (p i) = true else x ∈ l (s.lane i)) (j : LaneId) (x : Nat) :
      x ∈ l (t.lane j) ↔ (t.item? x).any (p j) = true := by
    rw [w.item]
    by_cases hj : j = i
    · subst hj
      rw [ht]
      split
      · rfl
      · exact hs j x
    · rw [r.lane j hj, hs]
      split
      · rename_i hx
        subst hx
        exact iff_of_false (any_of_other_lane r.own hj (hp j)) (any_of_other_lane (fun it h => (r.placed it h).1) hj (hp j))
      · rfl
  refine ⟨w.rising, fun x it hit => ?_, fun j => ?_,
    place Item.onScreen (fun _ _ => Item.lane_of_onScreen) Lane.visible h.visible r.visible,
    place Item.waits (fun _ _ => Item.lane_of_waits) Lane.queued h.queued r.queued, fun j => ?_, fun j => ?_⟩
  · rw [w.item] at hit
    split at hit
    · rename_i hx; exact hx ▸ (r.placed it hit).2
    · exact h.slots x it hit
  all_goals by_cases hj : j = i
  · exact hj ▸ r.once
  · rw [r.lane j hj]; exact h.once j
  · exact hj ▸ r.bare
  · rw [r.lane j hj]; exact h.bare j
  · exact hj ▸ r.off
  · rw [r.lane j hj]; exact h.off j

end

/-! ### Lists and references together -/

/-- The run lists and the pool agree, and items, symbols, texts and refreshes do where G holds. -/
structure Agree (G : Prop) (s : State) : Prop where
  lists : s.Lists
  refs : G → s.Refs

section
variable {G : Prop} {s t : State} {i : LaneId} {k : Nat} {o : Option Item} {it : Item}

theorem Agree.rewrite (h : Agree G s) (w : Rewrites k o s t) (r : Relists k i o s t)
    (hfit : G → ∀ it, o = some it → s.Fits it) : Agree G t :=
  ⟨h.lists.relist w r, fun g => (h.refs g).rewrite w (hfit g)⟩

/-- A rewritten item that keeps its lane, and its cell or the lack of one. -/
theorem State.Lists.inPlace (h : s.Lists) (hit : s.item? k = some it) {it' : Item} (hlane : it'.lane = it.lane)
    (hcell : it'.cell.isSome = it.cell.isSome) (hl : ∀ j, t.lane j = s.lane j) : Relists k it.lane (some it') s t where
  lane j _ := hl j
  own x hx := by cases hit.symm.trans hx; rfl
  placed x hx := by cases hx; exact ⟨hlane, h.slots k it hit⟩
  once := by rw [hl]; exact h.once _
  visible j := by
    rw [hl]
    split
    · rename_i e; subst e; rw [h.visible, hit]; simp [Item.onScreen, hlane, hcell]
    · rfl
  queued j := by
    have : it'.cell.isNone = it.cell.isNone := by rw [← Option.not_isSome, hcell, Option.not_isSome]
    rw [hl]
    split
    · rename_i e; subst e; rw [h.queued, hit]; simp [Item.waits, hlane, this]
    · rfl
  bare := by rw [hl]; exact h.bare _
  off := by rw [hl]; exact h.off _

theorem State.count_updItem (s : State) {f : Item → Item} (hit : s.item? k = some it) (p : Item → Bool) :
    (s.updItem k f).count p + (p it).toNat = s.count p + (p (f it)).toNat :=
  countP_tableUpdate f hit fun x => p x.2

/-- A record of an item changed in neither its content nor its view. -/
theorem Rewrites.updItem (h : s.Lists) {f : Item → Item} (hit : s.item? k = some it) (hcon : (f it).content = it.content)
    (hcell : (f it).cell.isSome = it.cell.isSome) : Rewrites k (some (f it)) s (s.updItem k f) where
  rising := (tableRising_update f).trans h.rising
  item j := by rw [State.item?_updItem, hit]; rfl
  count p := by simpa [hit] using s.count_updItem hit p
  symbols := rfl
  texts := rfl
  symbol link := by
    have hnames : (f it).names link = it.names link := by rw [Item.names, hcon, Item.names]
    have hshows : (f it).shows link = it.shows link := by rw [Item.shows, hcon, hcell, Item.shows]
    have : (s.updItem k f).symbol? link = s.symbol? link := rfl
    rw [this, hit]
    simp [hnames, hshows]
  text id := by
    have hcaptions : (f it).captions id = it.captions id := by rw [Item.captions, hcon, Item.captions]
    have hdisplays : (f it).displays id = it.displays id := by rw [Item.displays, hcon, hcell, Item.displays]
    have : (s.updItem k f).text? id = s.text? id := rfl
    rw [this, hit]
    simp [hcaptions, hdisplays]
  formatter := by
    have hshows : (f it).showsQuote = it.showsQuote := by rw [Item.showsQuote, hcon, hcell, Item.showsQuote]
    rw [hit]
    simp [hshows]

/-- A record of an item changed in neither its lane, its content nor its view. -/
theorem Agree.updItem (h : Agree G s) {f : Item → Item} (hf : ∀ it, s.item? k = some it → (f it).lane = it.lane ∧
    (f it).content = it.content ∧ (f it).cell.isSome = it.cell.isSome ∧
    (G → ∀ c, (f it).cell = some c → it.content.RendersAs c.rendering)) : Agree G (s.updItem k f) := by
  cases hit : s.item? k with
  | none =>
    have : s.updItem k f = s := by simp only [State.updItem]; rw [tableUpdate_of_none hit]
    rw [this]; exact h
  | some it =>
    obtain ⟨hlane, hcon, hcell, hrender⟩ := hf it hit
    refine h.rewrite (.updItem h.lists hit hcon hcell) (h.lists.inPlace hit hlane hcell fun j => s.updItem_lane k f j)
      fun g x hx => ?_
    cases hx
    obtain ⟨hs, ht, -⟩ := (h.refs g).fits k it hit
    exact ⟨hcon ▸ hs, hcon ▸ ht, fun c hc => hcon ▸ hrender g c hc⟩

end

end Sys2Proof.Machine

namespace Sys2Proof.Machine

/-! ### What leaves items, symbols, texts and refreshes alone -/

/-- What the agreement of items, symbols, texts and refreshes speaks of. -/
def State.store (s : State) : Table Item × Table SymbolRec × Table TextRec × List Nat × Option Formatting :=
  (s.pool.items, s.symbols, s.texts, s.formatter.queue, s.formatter.inFlight)

/-- What the agreement of run lists and pool speaks of, and that of references. -/
def State.stock (s : State) : Vector Lane 6 × Table Item × Table SymbolRec × Table TextRec × List Nat × Option Formatting :=
  (s.lanes, s.store)

/-- The lane l' has the run list of l, and shows something only where l may. -/
structure Lane.Guides (l l' : Lane) : Prop where
  visible : l'.visible = l.visible
  queued : l'.queued = l.queued
  bare : l'.isBare = true → l.isBare = true ∨ l.visible = []
  off : l'.state = .off → l.state = .off ∨ l.queued = []

/-- The state in which a lane may show items, whatever else it holds: every one but OFF, IDLE and ARMED. -/
def LaneState.mayShow : LaneState → Bool
  | .off | .idle | .armed => false
  | .run | .brake | .held | .stopped | .frozen => true

/-- The lane is in a state in which it may show items. -/
def Lane.Awake (l : Lane) : Prop := l.state.mayShow = true

/-- t is s after work that starts, stops and steers lanes: every run list is as it was, lanes that may show items go on so,
and items, symbols, texts and refreshes are untouched. -/
structure Steers (s t : State) : Prop where
  store : t.store = s.store
  lane : ∀ i, (s.lane i).Guides (t.lane i)
  awake : ∀ i, (s.lane i).Awake → (t.lane i).Awake

section
variable {G : Prop} {s t u : State} {i : LaneId} {l l' : Lane}

theorem Lane.Awake.not_bare (h : l.Awake) : ¬ l.isBare = true := by
  unfold Lane.Awake at h
  unfold Lane.isBare
  cases hs : l.state <;> simp_all [LaneState.mayShow]

theorem Lane.Awake.ne (h : l.Awake) {st : LaneState} (hst : st.mayShow = false) : l.state ≠ st := fun e => by
  rw [Lane.Awake, e, hst] at h; cases h

theorem State.stock_eq_iff : t.stock = s.stock ↔ t.lanes = s.lanes ∧ t.store = s.store := Prod.ext_iff

theorem State.store_eq (h : t.store = s.store) : t.pool.items = s.pool.items ∧ t.symbols = s.symbols ∧ t.texts = s.texts ∧
    t.formatter.queue = s.formatter.queue ∧ t.formatter.inFlight = s.formatter.inFlight := by
  simpa only [State.store, Prod.mk.injEq] using h

theorem State.Refs.of_store (h : s.Refs) (e : t.store = s.store) : t.Refs := by
  obtain ⟨hitems, hsymbols, htexts, hqueue, hflight⟩ := State.store_eq e
  have hitem (k : Nat) : t.item? k = s.item? k := by rw [State.item?, hitems, State.item?]
  have hsymbol (k : Nat) : t.symbol? k = s.symbol? k := by rw [State.symbol?, hsymbols, State.symbol?]
  have htext (k : Nat) : t.text? k = s.text? k := by rw [State.text?, htexts, State.text?]
  have hcount (p : Item → Bool) : t.count p = s.count p := by rw [State.count, hitems, State.count]
  refine ⟨hsymbols ▸ h.symbols, htexts ▸ h.texts, fun k it hit => ?_, fun k r hr => ?_, fun k r hr => ?_, fun k r hr => ?_,
    fun k r hr => ?_, hqueue ▸ h.once, fun k hk => ?_, fun f hf hd => ?_⟩
  · obtain ⟨hs, ht, hc⟩ := h.fits k it (hitem k ▸ hit)
    exact ⟨fun code link hcon => hsymbol link ▸ hs code link hcon, fun id hcon => htext id ▸ ht id hcon, hc⟩
  · rw [hcount]; exact h.named k r (hsymbol k ▸ hr)
  · simp only [hitem]; exact h.views k r (hsymbol k ▸ hr)
  · rw [hcount]; exact h.captioned k r (htext k ▸ hr)
  · rw [hcount]; exact h.displayed k r (htext k ▸ hr)
  · rw [hitem]; exact h.queue k (hqueue ▸ hk)
  · rw [hitem]; exact h.inFlight f (hflight ▸ hf) hd

theorem State.Lists.of_guides (h : s.Lists) (e : t.pool.items = s.pool.items) (hl : ∀ i, (s.lane i).Guides (t.lane i)) :
    t.Lists := by
  have hitem (k : Nat) : t.item? k = s.item? k := by rw [State.item?, e, State.item?]
  refine ⟨e ▸ h.rising, fun k it hit => h.slots k it (hitem k ▸ hit), fun j => ?_, fun j k => ?_, fun j k => ?_,
    fun j hb => ?_, fun j hs => ?_⟩
  · rw [(hl j).visible, (hl j).queued]; exact h.once j
  · rw [(hl j).visible, hitem]; exact h.visible j k
  · rw [(hl j).queued, hitem]; exact h.queued j k
  · rw [(hl j).visible]; exact ((hl j).bare hb).elim (h.bare j) id
  · rw [(hl j).queued]; exact ((hl j).off hs).elim (h.off j) id

theorem Agree.of_guides (h : Agree G s) (e : t.store = s.store) (hl : ∀ i, (s.lane i).Guides (t.lane i)) : Agree G t :=
  ⟨h.lists.of_guides (State.store_eq e).1 hl, fun g => (h.refs g).of_store e⟩

theorem Agree.steer (h : Agree G s) (w : Steers s t) : Agree G t := h.of_guides w.store w.lane

/-! ### Lanes that keep their run lists -/

theorem Lane.Guides.refl (l : Lane) : l.Guides l := ⟨rfl, rfl, .inl, .inl⟩

/-- A lane that enters a state in which it may show items. -/
theorem Lane.Guides.of_awake (hv : l'.visible = l.visible) (hq : l'.queued = l.queued) (ha : l'.Awake) : l.Guides l' :=
  ⟨hv, hq, fun hb => absurd hb ha.not_bare, fun hs => absurd hs (ha.ne rfl)⟩

/-- A lane that keeps its state and what it is armed from. -/
theorem Lane.Guides.of_state (hv : l'.visible = l.visible) (hq : l'.queued = l.queued) (hs : l'.state = l.state)
    (ha : l'.arm.map Arm.returns = l.arm.map Arm.returns) : l.Guides l' := by
  refine ⟨hv, hq, fun hb => .inl ?_, fun h => .inl (hs ▸ h)⟩
  have : l'.isBare = l.isBare := by
    unfold Lane.isBare
    rw [hs]
    cases h' : l'.arm <;> cases h : l.arm <;> simp_all
  rwa [← this]

theorem Lane.Guides.trans {l₁ l₂ l₃ : Lane} (a : l₁.Guides l₂) (b : l₂.Guides l₃) : l₁.Guides l₃ :=
  ⟨b.visible.trans a.visible, b.queued.trans a.queued, fun h => (b.bare h).elim a.bare fun h => .inr (a.visible ▸ h),
    fun h => (b.off h).elim a.off fun h => .inr (a.queued ▸ h)⟩

theorem Agree.setLane (h : Agree G s) (hl : (s.lane i).Guides l) : Agree G (s.setLane i l) :=
  h.of_guides rfl fun j => by
    rw [State.lane_setLane]
    split
    · rename_i e; exact e ▸ hl
    · exact .refl _

theorem Steers.of_stock (h : t.stock = s.stock) : Steers s t := by
  obtain ⟨hl, hs⟩ := State.stock_eq_iff.mp h
  have hlane (i : LaneId) : t.lane i = s.lane i := State.lane_congr hl i
  exact ⟨hs, fun i => hlane i ▸ .refl _, fun i => hlane i ▸ id⟩

theorem Agree.of_stock (h : Agree G s) (e : t.stock = s.stock) : Agree G t := h.steer (.of_stock e)

theorem Agree.raise (h : Agree G s) (f : Factor) : Agree G (s.raise f) := h.of_stock rfl

theorem Steers.refl (s : State) : Steers s s := .of_stock rfl

theorem Steers.trans (a : Steers s t) (b : Steers t u) : Steers s u :=
  ⟨b.store.trans a.store, fun i => (a.lane i).trans (b.lane i), fun i h => b.awake i (a.awake i h)⟩

theorem Steers.foldl {α : Type} {f : State → α → State} (h : ∀ s a, Steers s (f s a)) (as : List α) (s : State) :
    Steers s (as.foldl f s) := by
  induction as generalizing s with
  | nil => exact .refl s
  | cons a as ih => exact (h s a).trans (ih (f s a))

theorem Steers.raise (w : Steers s t) {f : Factor} : Steers s (t.raise f) := w.trans (.of_stock rfl)

theorem Steers.setLane (hl : (s.lane i).Guides l) (ha : (s.lane i).Awake → l.Awake) : Steers s (s.setLane i l) := by
  refine ⟨rfl, fun j => ?_, fun j => ?_⟩ <;> rw [State.lane_setLane] <;> split
  · rename_i e; exact e ▸ hl
  · exact .refl _
  · rename_i e; exact e ▸ ha
  · exact id

/-- A lane that enters a state in which it may show items. -/
theorem Steers.setLane_awake (hv : l.visible = (s.lane i).visible) (hq : l.queued = (s.lane i).queued) (ha : l.Awake) :
    Steers s (s.setLane i l) := .setLane (.of_awake hv hq ha) fun _ => ha

theorem Steers.setLane_raise {f : Factor} (hv : l.visible = (s.lane i).visible) (hq : l.queued = (s.lane i).queued)
    (ha : l.Awake) : Steers s ((s.setLane i l).raise f) := (Steers.setLane_awake hv hq ha).raise

/-- A lane that keeps its state and what it is armed from. -/
theorem Steers.setLane_state (hv : l.visible = (s.lane i).visible) (hq : l.queued = (s.lane i).queued)
    (hs : l.state = (s.lane i).state) (ha : l.arm.map Arm.returns = (s.lane i).arm.map Arm.returns) :
    Steers s (s.setLane i l) := .setLane (.of_state hv hq hs ha) fun h => by rw [Lane.Awake, hs]; exact h

end

/-! ### Starts, comings to rest and stops -/

section
variable {s t : State} {i : LaneId}

/-- A lane that starts: it may show items then, or it is empty (R18, R19). -/
theorem Lane.Guides.begun (l : Lane) (r : ReturnState) : l.Guides (l.begun r) := by
  refine ⟨Lane.begun_visible l r, Lane.begun_queued l r, fun hb => ?_, fun hs => ?_⟩ <;> by_cases he :
    l.visible = [] ∧ l.queued = [] ∧ l.setup.onEmpty = .stop
  · exact .inr he.1
  · rw [Lane.begun, if_neg he] at hb; simp [Lane.isBare] at hb
  · exact .inr he.2.1
  · rw [Lane.begun, if_neg he] at hs; simp at hs

/-- The start of a lane that is not moving, held, stopped or frozen. -/
theorem Steers.startFrom (s : State) (i : LaneId) (r : ReturnState) (hs : ¬ (s.lane i).Awake ∨ r = .stopped) :
    Steers s (s.startFrom i r) := by
  rw [State.startFrom_eq]
  refine .raise (.setLane (.begun _ r) fun ha => ?_)
  obtain rfl := hs.resolve_left (not_not.mpr ha)
  unfold Lane.begun
  split <;> rfl

theorem Steers.startArmed (s : State) (i : LaneId) : Steers s (s.startArmed i) := by
  unfold State.startArmed
  split
  · split
    · rename_i hs
      exact .startFrom s i _ (.inl fun ha => ha.ne rfl hs)
    · exact .refl s
  · exact .refl s

theorem Steers.meetCondition (late : LaneSet) (s : State) (i : LaneId) : Steers s (s.meetCondition late i) := by
  unfold State.meetCondition
  split
  · refine .setLane_state rfl rfl rfl ?_
    cases h : (s.lane i).arm <;> simp [h]
  · exact .startArmed s i

theorem Steers.comesToRest (w : Steers s t) (late : LaneSet) (j : LaneId) : Steers s (t.comesToRest late j) :=
  w.trans (.foldl (.meetCondition late) _ t)

theorem Steers.pulses (w : Steers s t) (mask : LaneSet) : Steers s (t.pulses mask) :=
  w.trans (.foldl (fun s k => by
    unfold State.pulse
    split
    · exact .startArmed s k
    · exact .refl s) _ t)

theorem Steers.stopNow (s : State) (late : LaneSet) (i : LaneId) : Steers s (s.stopNow late i) := by
  have h : Steers s ((s.setLane i { s.lane i with
      state := .stopped, velocity := 0, brake := none, dwell := 0, clearing := false }).raise (.stopped i)) :=
    .setLane_raise rfl rfl rfl
  unfold State.stopNow
  simp only
  split
  · exact h.comesToRest late i
  · exact h

/-- A lane that leaves ARMED for its return state shows nothing when that is IDLE (R4, R21). -/
theorem Lane.Guides.cancelArm {l : Lane} (hs : l.state = .armed) : l.Guides l.cancelArm := by
  unfold Lane.cancelArm
  split
  · rename_i a ha
    cases hr : a.returns with
    | idle => exact ⟨rfl, rfl, fun _ => .inl (by simp [Lane.isBare, hs, ha, hr]), fun h => by cases h⟩
    | stopped => exact .of_awake rfl rfl rfl
  · exact .refl l

/-- A stop, by the table of R20. -/
theorem Steers.applyStop {late : LaneSet} {m : StopMode} (h : s.applyStop late i m = some t) : Steers s t := by
  have clear : Steers s (s.setLane i { s.lane i with clearing := true }) := .setLane_state rfl rfl rfl rfl
  cases hs : (s.lane i).state with
  | off | idle | stopped | frozen => rw [applyStop_of_still (by simp [hs])] at h; cases h
  | armed =>
    cases m with
    | now =>
      rw [applyStop_armed_now hs] at h
      cases h
      exact .setLane (.cancelArm hs) fun ha => absurd hs (ha.ne rfl)
    | ramp | clear => rw [applyStop_armed_other hs (by simp)] at h; cases h
  | run | brake =>
    cases m with
    | now => rw [applyStop_now (by simp [hs])] at h; cases h; exact .stopNow s late i
    | ramp =>
      rw [applyStop_moving_ramp (by simp [hs])] at h
      split at h <;> cases h
      exact .setLane_awake rfl rfl rfl
    | clear =>
      rw [applyStop_moving_clear (by simp [hs])] at h
      split at h <;> cases h
      exact clear
  | held =>
    cases m with
    | now => rw [applyStop_now (by simp [hs])] at h; cases h; exact .stopNow s late i
    | ramp =>
      rw [applyStop_held_ramp hs] at h
      cases h
      exact .setLane_raise rfl rfl rfl
    | clear =>
      rw [applyStop_held_clear hs] at h
      split at h <;> cases h
      exact clear

theorem Steers.endHold (s : State) (i : LaneId) : Steers s (s.endHold i) :=
  .setLane_raise rfl rfl rfl

theorem Steers.countDwell (s : State) (i : LaneId) : Steers s (s.countDwell i) := by
  unfold State.countDwell
  split
  · exact .endHold s i
  · exact .setLane_state rfl rfl rfl rfl

/-! ### The parts of an advance that leave the run list alone -/

/-- A step leaves its lane in RUN, BRAKE or STOPPED (R6 to R10). -/
theorem stepLane_awake {l : Lane} (h : l.Awake) : (stepLane l).lane.Awake := by
  have kept {l' : Lane} (hs : l'.state = l.state) : l'.Awake := by rw [Lane.Awake, hs]; exact h
  unfold stepLane
  split
  · unfold rampStep
    simp only
    split
    · rfl
    · split <;> exact kept rfl
  · split
    · rfl
    · split
      · rfl
      · unfold targetStep
        simp only
        split
        · exact kept rfl
        · rfl

theorem Lane.land_awake (l : Lane) (ramp : Bool) : (l.land ramp).Awake := by
  unfold Lane.land Lane.Awake
  simp only
  split <;> rfl

theorem Steers.landed (s : State) (i : LaneId) (r : StepResult) (hv : r.lane.visible = (s.lane i).visible)
    (hq : r.lane.queued = (s.lane i).queued) : Steers s (s.landed i r) := by
  obtain ⟨st, v, b, d, ts, cs, e⟩ := r.lane.land_keeps r.ramp
  have hset : Steers s (s.setLane i (r.lane.land r.ramp)) :=
    .setLane_awake (by rw [e]; exact hv) (by rw [e]; exact hq) (r.lane.land_awake r.ramp)
  have raiseIf {p : Prop} [Decidable p] {u : State} {f : Factor} (w : Steers s u) : Steers s (if p then u.raise f else u) := by
    split
    · exact w.raise
    · exact w
  exact raiseIf (raiseIf ((hset.trans (.foldl (fun _ _ => .raise (.refl _)) _ _)).trans
    (.foldl (fun _ _ => .raise (.refl _)) _ _)))

theorem Steers.stepPart (s : State) (i : LaneId) (ha : (s.lane i).Awake) : Steers s (s.stepPart i) := by
  obtain ⟨st, tr, v, b, e, -⟩ := stepLane_keeps (s.lane i)
  have hv : (stepLane (s.lane i)).lane.visible = (s.lane i).visible := by rw [e]
  have hq : (stepLane (s.lane i)).lane.queued = (s.lane i).queued := by rw [e]
  have hset : Steers s (s.setLane i (stepLane (s.lane i)).lane) := .setLane_awake hv hq (stepLane_awake ha)
  unfold State.stepPart
  simp only
  split
  · rw [State.landOn_eq]
    exact ((Steers.landed s i _ hv hq).comesToRest 0 i).trans (.foldl (fun _ _ => .pulses (.refl _) _) _ _)
  · split
    · exact hset.raise.comesToRest 0 i
    · exact hset

/-- A lane that stops at the end of a ramp over nothing, or of its run list (R23, R42). -/
theorem Steers.stops (s : State) (i : LaneId) (f g : Factor) : Steers s
    (((s.setLane i { s.lane i with state := .stopped, velocity := 0, brake := none }).raise f).raise g) := by
  have hset : Steers s ((s.setLane i { s.lane i with state := .stopped, velocity := 0, brake := none }).raise f) :=
    .setLane_raise rfl rfl rfl
  exact hset.raise

theorem Steers.clearPart (s : State) (i : LaneId) : Steers s (s.clearPart i) := by
  unfold State.clearPart
  simp only
  split
  · exact (Steers.stops s i _ _).comesToRest 0 i
  · exact .refl s

theorem Steers.drainPart (s : State) (i : LaneId) : Steers s (s.drainPart i) := by
  unfold State.drainPart
  simp only
  split
  · exact (Steers.stops s i _ _).comesToRest 0 i
  · exact .refl s

theorem Steers.matchCue (s : State) (i : LaneId) (k : CueId) : Steers s (s.matchCue i k) := by
  unfold State.matchCue
  simp only
  refine .pulses (.raise ?_) _
  split
  · exact .refl s
  · exact .setLane_state rfl rfl rfl rfl

theorem Steers.cueActions (s : State) (i : LaneId) (as : List CueAction) : Steers s (s.cueActions i as) := by
  have stop (u : State) (m : StopMode) : Steers u ((u.applyStop 0 i m).getD u) := by
    cases h : u.applyStop 0 i m with
    | none => exact .refl u
    | some v => exact .applyStop h
  have load : Steers s (if .loadStaged ∈ as then s.updLane i Lane.loadStaged else s) := by
    have hload (l : Lane) : ∃ c a p, l.loadStaged = { l with cruise := c, accel := a, staged := p } := by
      unfold Lane.loadStaged; split
      · exact ⟨_, _, _, rfl⟩
      · exact ⟨_, _, _, rfl⟩
    obtain ⟨c, a, p, e⟩ := hload (s.lane i)
    split
    · rw [State.updLane_eq, e]; exact .setLane_state rfl rfl rfl rfl
    · exact .refl s
  have acts (u : State) : Steers u (if .stopNow ∈ as then (u.applyStop 0 i .now).getD u
      else if .stopRamp ∈ as then (u.applyStop 0 i .ramp).getD u else u) := by
    split
    · exact stop u .now
    · split
      · exact stop u .ramp
      · exact .refl u
  exact load.trans (acts _)

theorem Steers.cuePart (s : State) (i : LaneId) (v : CueView) : Steers s (s.cuePart i v) :=
  (Steers.foldl (fun s k => .matchCue s i k) _ s).trans (.cueActions _ i _)

/-- A freeze that reaches a lane (R147). -/
theorem Steers.freezeLane (s : State) (i : LaneId) : Steers s (s.freezeLane i) := by
  have freeze : Steers s ((s.setLane i { s.lane i with
      state := .frozen, velocity := 0, brake := none, dwell := 0, arm := none }).raise (.frozen i)) :=
    .setLane_raise rfl rfl rfl
  unfold State.freezeLane
  cases hs : (s.lane i).state with
  | off | idle | frozen => simp only [hs]; exact .refl s
  | armed | run | brake | held | stopped => simp only [hs]; exact freeze

end

end Sys2Proof.Machine

namespace Sys2Proof.Machine

/-! ### Items freed, made, replaced, entered and queued again -/

section
variable (s : State) (c : Content) (k : Nat)

theorem State.addReference_rising : tableRising (s.addReference c).symbols = tableRising s.symbols ∧
    tableRising (s.addReference c).texts = tableRising s.texts := by
  cases c <;> simp [State.addReference, tableRising_update]

theorem State.dropReference_rising : tableRising (s.dropReference c).symbols = tableRising s.symbols ∧
    tableRising (s.dropReference c).texts = tableRising s.texts := by
  cases c <;> simp [State.dropReference, tableRising_update]

theorem State.joinView_rising : tableRising (s.joinView k c).symbols = tableRising s.symbols ∧
    tableRising (s.joinView k c).texts = tableRising s.texts := by
  cases c <;> simp [State.joinView, tableRising_update]

theorem State.leaveView_rising : tableRising (s.leaveView k c).symbols = tableRising s.symbols ∧
    tableRising (s.leaveView k c).texts = tableRising s.texts := by
  cases c <;> simp [State.leaveView, tableRising_update]

theorem State.hide_rising (it : Item) : tableRising (s.hide k it).symbols = tableRising s.symbols ∧
    tableRising (s.hide k it).texts = tableRising s.texts := by
  unfold State.hide
  split
  · exact s.leaveView_rising it.content k
  · exact ⟨rfl, rfl⟩

end

section
variable {G : Prop} {s t : State} {i : LaneId} {k : Nat} {o : Option Item} {it : Item} {l : Lane}

/-- A lane changed, and nothing that items name. -/
theorem Rewrites.setLane (w : Rewrites k o s t) (i : LaneId) (l : Lane) : Rewrites k o s (t.setLane i l) :=
  ⟨w.rising, w.item, w.count, w.symbols, w.texts, w.symbol, w.text, w.formatter⟩

theorem Rewrites.freeItem (h : s.Lists) (hit : s.item? k = some it) : Rewrites k none s (s.freeItem k) where
  rising := State.freeItem_rising h.rising k
  item j := State.freeItem_item h.rising k j
  count p := by
    have hitems : (s.freeItem k).pool.items = tableErase s.pool.items k := by rw [State.freeItem_rest hit]; rfl
    rw [State.count, hitems, hit]
    exact countP_tableErase hit fun x => p x.2
  symbols := by
    rw [State.freeItem_steps hit]
    exact ((State.dropReference_rising _ it.content).1.trans (s.hide_rising k it).1)
  texts := by
    rw [State.freeItem_steps hit]
    exact ((State.dropReference_rising _ it.content).2.trans (s.hide_rising k it).2)
  symbol link := by
    rw [State.freeItem_symbol? hit, hit]
    congr 1; funext r
    cases hq : it.content.quotes link <;> cases hc : it.cell <;> simp [Item.names, Item.shows, moveView, hq, hc]
  text id := by
    rw [State.freeItem_text? hit, hit]
    congr 1; funext r
    cases hq : it.content.captions id <;> cases hc : it.cell <;> simp [Item.captions, Item.displays, hq, hc]
  formatter := by
    rw [State.freeItem_formatter hit, hit]
    simp [Item.showsQuote, and_comm]

theorem Relists.freeItem (h : s.Lists) (hit : s.item? k = some it) : Relists k it.lane none s (s.freeItem k) := by
  have hlane : (s.freeItem k).lane it.lane = (s.lane it.lane).dropItem k := by rw [State.freeItem_lane_eq hit, if_pos rfl]
  obtain ⟨hv, hq, -⟩ := List.nodup_append.mp (h.once it.lane)
  refine ⟨fun j hj => by rw [State.freeItem_lane_eq hit, if_neg hj], fun x hx => by (cases hit.symm.trans hx); rfl,
    fun _ hx => by (cases hx), ?_, fun j => ?_, fun j => ?_, fun hb => ?_, fun hs => ?_⟩
  all_goals rw [hlane]
  · exact (h.once it.lane).sublist (List.erase_sublist.append List.erase_sublist)
  · simp [Lane.dropItem, hv.mem_erase_iff]
  · simp [Lane.dropItem, hq.mem_erase_iff]
  · rw [hlane] at hb
    simp [Lane.dropItem, h.bare it.lane hb]
  · rw [hlane] at hs
    simp [Lane.dropItem, h.off it.lane hs]

theorem Agree.freeItem (h : Agree G s) (k : Nat) : Agree G (s.freeItem k) := by
  cases hit : s.item? k with
  | none => rw [State.freeItem_none hit]; exact h
  | some it => exact h.rewrite (.freeItem h.lists hit) (.freeItem h.lists hit) fun _ _ hx => by cases hx

theorem Agree.freeItems (h : Agree G s) (ks : List Nat) : Agree G (s.freeItems ks) := by
  induction ks generalizing s with
  | nil => exact h
  | cons k ks ih => exact ih (h.freeItem k)

/-- An item made in a free slot and put in its lane's queue (R29, R44). -/
theorem Rewrites.putItem (h : s.Lists) (hfree : s.item? k = none) (hc : it.cell = none) (l : Lane) :
    Rewrites k (some it) s (((s.putItem k it).setLane i l).addReference it.content) where
  rising := by rw [State.addReference_pool]; exact tableRising_put h.rising
  item j := by
    have : (((s.putItem k it).setLane i l).addReference it.content).item? j = tableFind (tablePut s.pool.items k it) j := by
      simp only [State.item?, State.addReference_pool]; rfl
    rw [this, tableFind_put h.rising]
    rfl
  count p := by
    rw [State.count, State.addReference_pool, hfree]
    exact countP_tablePut it hfree fun x => p x.2
  symbols := (State.addReference_rising _ it.content).1
  texts := (State.addReference_rising _ it.content).2
  symbol link := by
    rw [State.symbol?_addReference, hfree]
    change Option.map _ (s.symbol? link) = _
    congr 1; funext r
    cases hq : it.content.quotes link <;> simp [Item.names, Item.shows, moveView, hq, hc]
  text id := by
    rw [State.text?_addReference, hfree]
    change Option.map _ (s.text? id) = _
    congr 1; funext r
    cases hq : it.content.captions id <;> simp [Item.captions, Item.displays, hq, hc]
  formatter := by rw [State.addReference_formatter, hfree]; rfl

theorem Agree.putItem (h : Agree G s) (hfree : s.item? k = none) (hk : k < Config.itemSlots) (hi : it.lane = i)
    (hc : it.cell = none) {q : List Nat} (hq : q.Perm (k :: (s.lane i).queued)) (hoff : (s.lane i).state ≠ .off)
    (hfit : G → s.Fits it) :
    Agree G (((s.putItem k it).setLane i { s.lane i with queued := q }).addReference it.content) := by
  have hlane (j : LaneId) : (((s.putItem k it).setLane i { s.lane i with queued := q }).addReference it.content).lane j =
      if i = j then { s.lane i with queued := q } else s.lane j := by
    rw [State.lane_congr (State.addReference_lanes _ it.content) j, State.lane_setLane]; rfl
  have hnew (p : Item → Bool) : (s.item? k).any p = false := by rw [hfree]; rfl
  have hv : k ∉ (s.lane i).visible := by rw [h.lists.visible, hnew]; simp
  have hw : k ∉ (s.lane i).queued := by rw [h.lists.queued, hnew]; simp
  refine h.rewrite (.putItem h.lists hfree hc _) (i := i) ⟨fun j hj => by rw [hlane, if_neg (Ne.symm hj)],
    fun x hx => by (cases hfree.symm.trans hx), fun x hx => by cases hx; exact ⟨hi, hk⟩, ?_, fun j => ?_, fun j => ?_,
    fun hb => ?_, fun hs => ?_⟩ fun g x hx => by cases hx; exact hfit g
  all_goals rw [hlane, if_pos rfl]
  · refine ((hq.append_left _).nodup_iff).mpr (List.perm_middle.nodup_iff.mpr (List.nodup_cons.mpr ⟨?_, h.lists.once i⟩))
    simp [hv, hw]
  · by_cases e : j = k
    · subst e; simp [hv, Item.onScreen, hc]
    · simp [e]
  · rw [hq.mem_iff, List.mem_cons]
    by_cases e : j = k
    · simp [e, Item.waits, hi, hc]
    · simp [e]
  · rw [hlane, if_pos rfl] at hb
    exact h.lists.bare i hb
  · rw [hlane, if_pos rfl] at hs
    exact absurd hs hoff

/-- A queued item that takes another content (R46). -/
theorem Rewrites.replace (h : s.Lists) (hit : s.item? k = some it) (hc : it.cell = none) (c : Content) (ink : Fin 16) :
    Rewrites k (some { it with content := c, ink := ink }) s
      (((s.addReference c).dropReference it.content).updItem k fun it => { it with content := c, ink := ink }) where
  rising := by
    refine (tableRising_update _).trans ?_
    rw [State.dropReference_pool, State.addReference_pool]; exact h.rising
  item j := by
    rw [State.item?_updItem]
    simp only [State.item?, State.dropReference_pool, State.addReference_pool]
    rw [show tableFind s.pool.items k = some it from hit]
    rfl
  count p := by
    have hit' : ((s.addReference c).dropReference it.content).item? k = some it := by
      simp only [State.item?, State.dropReference_pool, State.addReference_pool]; exact hit
    have := State.count_updItem _ (f := fun it => { it with content := c, ink := ink }) hit' p
    rw [hit]
    simpa only [State.count, State.dropReference_pool, State.addReference_pool, Option.any_some] using this
  symbols := (State.dropReference_rising _ it.content).1.trans (s.addReference_rising c).1
  texts := (State.dropReference_rising _ it.content).2.trans (s.addReference_rising c).2
  symbol link := by
    have : (((s.addReference c).dropReference it.content).updItem k fun it => { it with content := c, ink := ink }).symbol? link =
        ((s.addReference c).dropReference it.content).symbol? link := rfl
    rw [this, State.symbol?_dropReference, State.symbol?_addReference, hit, Option.map_map]
    congr 1; funext r
    cases hq : it.content.quotes link <;> cases hq' : c.quotes link <;> simp [Item.names, Item.shows, moveView, hq, hq', hc]
  text id := by
    have : (((s.addReference c).dropReference it.content).updItem k fun it => { it with content := c, ink := ink }).text? id =
        ((s.addReference c).dropReference it.content).text? id := rfl
    rw [this, State.text?_dropReference, State.text?_addReference, hit, Option.map_map]
    congr 1; funext r
    cases hq : it.content.captions id <;> cases hq' : c.captions id <;> simp [Item.captions, Item.displays, hq, hq', hc]
  formatter := by
    rw [hit, State.updItem_formatter, State.dropReference_formatter, State.addReference_formatter]
    simp [Item.showsQuote, hc]

theorem Agree.replace (h : Agree G s) (hit : s.item? k = some it) (hc : it.cell = none) (c : Content) (ink : Fin 16)
    (hfit : G → s.Fits { it with content := c, ink := ink }) :
    Agree G (((s.addReference c).dropReference it.content).updItem k fun it => { it with content := c, ink := ink }) :=
  h.rewrite (.replace h.lists hit hc c ink)
    (h.lists.inPlace hit rfl rfl fun j => State.lane_congr (by simp) j) fun g x hx => by cases hx; exact hfit g

/-- An item that enters the window (R38). -/
theorem Rewrites.enterItem (h : s.Lists) (hit : s.item? k = some it) (hc : it.cell = none) (i : LaneId) (before : Nat) :
    Rewrites k (some { it with cell := some (s.entryCell i before it) }) s (s.enterItem i before k it) where
  rising := by rw [State.enterItem_eq, State.joinView_pool]; exact (tableRising_update _).trans h.rising
  item j := State.enterItem_item hit i before j
  count p := by
    have := s.count_updItem (f := fun x => { x with cell := some (s.entryCell i before it) }) hit p
    rw [hit, State.enterItem_eq]
    simpa only [State.count, State.joinView_pool, State.raise_pool, State.setLane_pool, Option.any_some] using this
  symbols := (State.joinView_rising _ it.content k).1
  texts := (State.joinView_rising _ it.content k).2
  symbol link := by
    rw [State.enterItem_symbol?, hit]
    congr 1; funext r
    cases hq : it.content.quotes link <;> simp [Item.names, Item.shows, moveView, hq, hc]
  text id := by
    rw [State.enterItem_text?, hit]
    congr 1; funext r
    cases hq : it.content.captions id <;> simp [Item.captions, Item.displays, hq, hc]
  formatter := by
    rw [State.enterItem_rest, hit]
    simp [Item.showsQuote, hc]

/-- What the Formatter renders at entry is of the item's content (R33, R106). -/
theorem State.formatEntry_renders (s : State) (i : LaneId) (c : Content) : c.RendersAs (s.formatEntry i c).1 := by
  cases c with
  | quote => exact ⟨_, rfl⟩
  | text | mark => rfl

theorem Agree.enterItem (h : Agree G s) (hit : s.item? k = some it) (hi : it.lane = i) (hc : it.cell = none)
    (ha : (s.lane i).Awake) (before : Nat) : Agree G (s.enterItem i before k it) := by
  have hlane : (s.enterItem i before k it).lane i = (s.lane i).entered k (s.entryCell i before it) it.holdDwell := by
    rw [State.enterItem_lane, if_pos rfl]
  have hawake : ((s.enterItem i before k it).lane i).Awake := by rw [hlane]; exact ha
  have hq : k ∈ (s.lane i).queued := by rw [h.lists.queued, hit]; simp [Item.waits, hi, hc]
  obtain ⟨-, hqn, -⟩ := List.nodup_append.mp (h.lists.once i)
  refine h.rewrite (.enterItem h.lists hit hc i before) (i := i) ⟨fun j hj => by rw [State.enterItem_lane, if_neg (Ne.symm hj)],
    fun x hx => by cases hit.symm.trans hx; exact hi, fun x hx => by cases hx; exact ⟨hi, h.lists.slots k it hit⟩, ?_,
    fun j => ?_, fun j => ?_, fun hb => absurd hb hawake.not_bare, fun hs => absurd hs (hawake.ne rfl)⟩ fun g x hx => ?_
  · rw [hlane, Lane.entered, List.append_assoc]
    exact ((List.perm_cons_erase hq).symm.append_left _).nodup_iff.mpr (h.lists.once i)
  · rw [hlane]
    by_cases e : j = k <;> simp [Lane.entered, e, Item.onScreen, hi]
  · rw [hlane]
    by_cases e : j = k <;> simp [Lane.entered, e, Item.waits, hqn.mem_erase_iff]
  · cases hx
    obtain ⟨hs, ht, -⟩ := (h.refs g).fits k it hit
    exact ⟨hs, ht, fun c hx => by cases hx; exact s.formatEntry_renders i it.content⟩

/-- An item put at the tail of its lane's run list again. -/
theorem Relists.requeue (h : s.Lists) (hit : s.item? k = some it) (hi : it.lane = i) (ha : (s.lane i).Awake) {it' : Item}
    (hi' : it'.lane = i) (hc : it'.cell = none) (ht : ∀ j, t.lane j = if i = j then (s.lane i).requeue k else s.lane j) :
    Relists k i (some it') s t := by
  have hlane : t.lane i = (s.lane i).requeue k := by rw [ht, if_pos rfl]
  have hawake : (t.lane i).Awake := by rw [hlane]; exact ha
  obtain ⟨hv, hq, hd⟩ := List.nodup_append.mp (h.once i)
  refine ⟨fun j hj => by rw [ht, if_neg (Ne.symm hj)], fun x hx => by cases hit.symm.trans hx; exact hi,
    fun x hx => by cases hx; exact ⟨hi', h.slots k it hit⟩, ?_, fun j => ?_, fun j => ?_,
    fun hb => absurd hb hawake.not_bare, fun hs => absurd hs (hawake.ne rfl)⟩
  all_goals rw [hlane]
  · have hsub : (((s.lane i).dropItem k).visible ++ ((s.lane i).dropItem k).queued).Sublist
        ((s.lane i).visible ++ (s.lane i).queued) :=
      List.erase_sublist.append List.erase_sublist
    rw [Lane.requeue, ← List.append_assoc]
    refine List.nodup_append.mpr ⟨(h.once i).sublist hsub, List.nodup_singleton k, fun a ha b hb => ?_⟩
    rw [List.mem_singleton.mp hb]
    rintro rfl
    rcases List.mem_append.mp ha with ha | ha
    · exact hv.not_mem_erase ha
    · exact hq.not_mem_erase ha
  · by_cases e : j = k <;> simp [Lane.requeue, Lane.dropItem, e, hv.mem_erase_iff, Item.onScreen, hc]
  · by_cases e : j = k <;> simp [Lane.requeue, Lane.dropItem, e, hq.mem_erase_iff, Item.waits, hc, hi']

/-- A queued item passed over (R41). -/
theorem Agree.skipItem (h : Agree G s) (hit : s.item? k = some it) (hi : it.lane = i) (hc : it.cell = none)
    (ha : (s.lane i).Awake) : Agree G (s.skipItem i k it) := by
  by_cases hp : it.passes = 1
  · subst hi
    rw [State.skipItem_last hit hc hp (Lane.dropItem_dropItem (h.lists.once it.lane))]
    exact (h.freeItem k).raise _
  · rw [State.skipItem_again hit hp]
    exact h.rewrite (Rewrites.setLane (.updItem h.lists hit rfl rfl) _ _)
      (.requeue h.lists hit hi ha hi hc fun j => by rw [State.lane_setLane]; rfl)
      fun g x hx => by cases hx; obtain ⟨hs, ht, hr⟩ := (h.refs g).fits k it hit; exact ⟨hs, ht, hr⟩

end

end Sys2Proof.Machine

namespace Sys2Proof.Machine

/-! ### Retirement and entry -/

section
variable {G : Prop} {s t : State} {i : LaneId} {k : Nat} {it : Item}

/-- A visible item that goes to the tail of its run list (R37). -/
theorem Rewrites.retire (h : s.Lists) (hit : s.item? k = some it) (hc : it.cell ≠ none) :
    Rewrites k (some { it with cell := none, passes := it.passes - 1 }) s
      ((s.leaveView k it.content).updItem k fun it => { it with cell := none, passes := it.passes - 1 }) where
  rising := by
    refine (tableRising_update _).trans ?_
    rw [State.leaveView_pool]; exact h.rising
  item j := by
    rw [State.item?_updItem]
    simp only [State.item?, State.leaveView_pool]
    rw [show tableFind s.pool.items k = some it from hit]
    rfl
  count p := by
    have hit' : (s.leaveView k it.content).item? k = some it := by
      simp only [State.item?, State.leaveView_pool]; exact hit
    have := State.count_updItem _ (f := fun it => { it with cell := none, passes := it.passes - 1 }) hit' p
    rw [hit]
    simpa only [State.count, State.leaveView_pool, Option.any_some] using this
  symbols := (s.leaveView_rising it.content k).1
  texts := (s.leaveView_rising it.content k).2
  symbol link := by
    have : ((s.leaveView k it.content).updItem k fun it => { it with cell := none, passes := it.passes - 1 }).symbol? link =
        (s.leaveView k it.content).symbol? link := rfl
    have hc' : it.cell.isSome = true := Option.isSome_iff_ne_none.mpr hc
    rw [this, State.symbol?_leaveView, hit]
    congr 1; funext r
    cases hq : it.content.quotes link <;> simp [Item.names, Item.shows, moveView, hq, hc']
  text id := by
    have : ((s.leaveView k it.content).updItem k fun it => { it with cell := none, passes := it.passes - 1 }).text? id =
        (s.leaveView k it.content).text? id := rfl
    have hc' : it.cell.isSome = true := Option.isSome_iff_ne_none.mpr hc
    rw [this, State.text?_leaveView, hit]
    congr 1; funext r
    cases hq : it.content.captions id <;> simp [Item.captions, Item.displays, hq, hc']
  formatter := by
    have hc' : it.cell.isSome = true := Option.isSome_iff_ne_none.mpr hc
    rw [hit, State.updItem_formatter, State.leaveView_formatter]
    simp [Item.showsQuote, hc']

theorem Agree.retire (h : Agree G s) (hit : s.item? k = some it) (hi : it.lane = i) (hc : it.cell ≠ none)
    (ha : (s.lane i).Awake) : Agree G (s.retire i k it) := by
  by_cases hp : it.passes = 1
  · subst hi
    rw [State.retire_last hit hc hp (Lane.dropItem_dropItem (h.lists.once it.lane))]
    exact (h.freeItem k).raise _
  · rw [State.retire_again hit hp]
    refine h.rewrite (Rewrites.setLane (.retire h.lists hit hc) _ _) (.requeue h.lists hit hi ha hi rfl fun j => ?_)
      fun g x hx => ?_
    · rw [State.lane_setLane, State.updItem_lane, State.lane_congr (s.leaveView_lanes k it.content) j]
    · cases hx
      obtain ⟨hs, ht, -⟩ := (h.refs g).fits k it hit
      exact ⟨hs, ht, fun _ hx => by cases hx⟩

/-- An item that retires leaves the visible items of its lane, which keeps its state. -/
theorem State.retire_lane (h : s.Lists) (hit : s.item? k = some it) (hi : it.lane = i) (hc : it.cell ≠ none) :
    ((s.retire i k it).lane i).state = (s.lane i).state ∧
      ((s.retire i k it).lane i).visible = (s.lane i).visible.erase k := by
  by_cases hp : it.passes = 1
  · subst hi
    rw [State.retire_last hit hc hp (Lane.dropItem_dropItem (h.once it.lane)), State.raise_lane, State.freeItem_lane_eq hit,
      if_pos rfl]
    exact ⟨rfl, rfl⟩
  · rw [State.retire_again hit hp, State.lane_setLane_same]
    exact ⟨rfl, rfl⟩

theorem State.skipItem_state (h : s.Lists) (hit : s.item? k = some it) (hi : it.lane = i) (hc : it.cell = none) :
    ((s.skipItem i k it).lane i).state = (s.lane i).state := by
  by_cases hp : it.passes = 1
  · subst hi
    rw [State.skipItem_last hit hc hp (Lane.dropItem_dropItem (h.once it.lane)), State.raise_lane, State.freeItem_lane_eq hit,
      if_pos rfl]
    rfl
  · rw [State.skipItem_again hit hp, State.lane_setLane_same]
    rfl

end

/-- Lane i is in an advance: all agrees, and the lane may show items. -/
structure Advancing (G : Prop) (i : LaneId) (s : State) : Prop where
  agree : Agree G s
  awake : (s.lane i).Awake

section
variable {G : Prop} {s t : State} {i : LaneId} {k : Nat} {it : Item}

theorem Advancing.steer (h : Advancing G i s) (w : Steers s t) : Advancing G i t := ⟨h.agree.steer w, w.awake i h.awake⟩

theorem Advancing.raise (h : Advancing G i s) (f : Factor) : Advancing G i (s.raise f) := ⟨h.agree.raise f, h.awake⟩

theorem Advancing.retireFrom (ks : List Nat) {s : State} (h : Advancing G i s) (hks : (s.lane i).visible = ks) :
    Advancing G i (s.retireFrom i ks) := by
  induction ks generalizing s with
  | nil => exact h
  | cons k ks ih =>
    obtain ⟨it, hit, hi, hc⟩ := any_onScreen.mp ((h.agree.lists.visible i k).mp (by rw [hks]; exact List.mem_cons_self))
    obtain ⟨c, hc⟩ := Option.isSome_iff_exists.mp hc
    have hne : it.cell ≠ none := by simp [hc]
    obtain ⟨hstate, hvisible⟩ := State.retire_lane h.agree.lists hit hi hne
    unfold State.retireFrom
    simp only [hit, hc]
    split
    · refine ih ⟨h.agree.retire hit hi hne h.awake, ?_⟩ (by rw [hvisible, hks, List.erase_cons_head])
      rw [Lane.Awake, hstate]
      exact h.awake
    · exact h

theorem Advancing.enterItem (h : Advancing G i s) (hit : s.item? k = some it) (hi : it.lane = i) (hc : it.cell = none)
    (before : Nat) : Advancing G i (s.enterItem i before k it) := by
  refine ⟨h.agree.enterItem hit hi hc h.awake before, ?_⟩
  rw [State.enterItem_lane, if_pos rfl]
  exact h.awake

theorem Advancing.skipItem (h : Advancing G i s) (hit : s.item? k = some it) (hi : it.lane = i) (hc : it.cell = none) :
    Advancing G i (s.skipItem i k it) := by
  refine ⟨h.agree.skipItem hit hi hc h.awake, ?_⟩
  rw [Lane.Awake, State.skipItem_state h.agree.lists hit hi hc]
  exact h.awake

theorem Advancing.enterItems (before fuel : Nat) (r : EntryRun) (h : Advancing G i r.state) :
    Advancing G i (enterItems i before fuel r).state := by
  induction fuel generalizing r with
  | zero => exact h
  | succ fuel ih =>
    cases hq : (r.state.lane i).queued with
    | nil => rwa [enterItems_empty hq]
    | cons slot rest =>
      obtain ⟨it, hit, hi, hc⟩ := any_waits.mp ((h.agree.lists.queued i slot).mp (by rw [hq]; exact List.mem_cons_self))
      cases hm : (r.state.lane i).mayEnter with
      | false => rwa [enterItems_ends hq (.inl hm)]
      | true =>
        by_cases hp : slot ∈ r.passed
        · rwa [enterItems_ends hq (.inr hp)]
        cases hf : r.state.unformattable it.content with
        | false =>
          rw [enterItems_formatted hq hm hp hit hf]
          exact ih _ (h.enterItem hit hi hc before)
        | true =>
          have hraise := h.raise (.formatFault i)
          cases hb : (r.state.lane i).setup.fault with
          | blank =>
            rw [enterItems_blank hq hm hp hit hf hb]
            exact ih _ (hraise.enterItem hit hi hc before)
          | skip =>
            rw [enterItems_skip hq hm hp hit hf hb]
            exact ih _ (hraise.skipItem hit hi hc)

/-- A moving advance (R5). -/
theorem Advancing.advance (h : Advancing G i s) : Advancing G i (s.advance i) := by
  have hstep := h.steer (.stepPart s i h.awake)
  have hclear := (hstep.retireFrom _ rfl).steer (.clearPart _ i)
  have hentry := hclear.enterItems (s.lane i).travel ((((s.stepPart i).retirePart i).clearPart i).lane i).queued.length
    { state := ((s.stepPart i).retirePart i).clearPart i, entered := [], passed := [] }
  have hcount (u : State) : Steers u (u.updLane i fun l => { l with runFrames := l.runFrames + 1 }) :=
    .setLane_state rfl rfl rfl rfl
  exact hentry.steer (((Steers.drainPart _ i).trans (.cuePart _ i _)).trans (hcount _))

/-! ### The answers to a frame start (R5) -/

/-- A cell changed in anything but its rendering. -/
theorem Agree.updCell (h : Agree G s) (k : Nat) {f : Cell → Cell} (hf : ∀ c, (f c).rendering = c.rendering) :
    Agree G (s.updItem k fun it => { it with cell := it.cell.map f }) := by
  refine h.updItem fun it hit => ⟨rfl, rfl, Option.isSome_map, fun g c hc => ?_⟩
  obtain ⟨c', hc', rfl⟩ := Option.map_eq_some_iff.mp hc
  rw [hf]
  exact ((h.refs g).fits k it hit).cell c' hc'

theorem Agree.flashPart (h : Agree G s) (i : LaneId) : Agree G (s.flashPart i) := by
  have flashes (ks : List Nat) (u : State) (hu : Agree G u) :
      Agree G (ks.foldl (fun s slot => s.updItem slot Item.countFlash) u) := by
    induction ks generalizing u with
    | nil => exact hu
    | cons k ks ih => exact ih _ (hu.updCell k fun _ => rfl)
  exact flashes _ s h

theorem Agree.answerFrame (h : Agree G s) (i : LaneId) : Agree G (s.answerFrame i) := by
  have hlane : (s.flashPart i).lane i = s.lane i := State.lane_congr (s.flashPart_lanes i) i
  have hflash := h.flashPart i
  have hmove (hs : (s.lane i).state = .run ∨ (s.lane i).state = .brake) : Agree G (s.answerFrame i) := by
    rw [answerFrame_of_moving hs]
    refine (Advancing.advance ⟨hflash, ?_⟩).agree
    rw [hlane, Lane.Awake]
    rcases hs with hs | hs <;> rw [hs] <;> rfl
  cases hs : (s.lane i).state with
  | off | idle | frozen => rwa [answerFrame_of_bare (by simp [hs])]
  | armed =>
    have hu : Agree G (s.armedFlash i) := by
      unfold State.armedFlash
      split
      · exact hflash
      · exact h
    rw [answerFrame_of_armed hs]
    split
    · exact hu.steer (.startArmed _ i)
    · exact hu
  | run => exact hmove (.inl hs)
  | brake => exact hmove (.inr hs)
  | held => rw [answerFrame_of_held hs]; exact hflash.steer (.countDwell _ i)
  | stopped => rw [answerFrame_of_stopped hs]; exact hflash

end

end Sys2Proof.Machine

namespace Sys2Proof.Machine

/-! ### The refresh queue (R107 to R112) -/

section
variable {G : Prop} {s t : State} {i : LaneId} {k : Nat} {it : Item}

/-- The item in slot k is a visible QUOTE. -/
def State.showsQuoteIn (s : State) (k : Nat) : Bool := (s.item? k).any Item.showsQuote

theorem Agree.setRefresh (h : Agree G s) {q : List Nat} {x : Option Formatting} (hn : G → q.Nodup)
    (hq : G → ∀ k ∈ q, s.showsQuoteIn k = true)
    (hx : G → ∀ f, x = some f → f.discarded = false → s.showsQuoteIn f.item = true) :
    Agree G { s with formatter := { s.formatter with queue := q, inFlight := x } } :=
  ⟨h.lists.of_guides rfl fun _ => .refl _, fun g =>
    have hr := h.refs g
    have hfits (k : Nat) (it : Item) (hit : s.item? k = some it) := hr.fits k it hit
    ⟨hr.symbols, hr.texts, fun k it hit => ⟨(hfits k it hit).symbol, (hfits k it hit).text, (hfits k it hit).cell⟩, hr.named,
      hr.views, hr.captioned, hr.displayed, hn g, hq g, hx g⟩⟩

theorem Agree.takeRefresh (h : Agree G s) : Agree G s.takeRefresh := by
  unfold State.takeRefresh
  split
  · rename_i slot rest hi hq
    have hrest (x : Option Formatting) (hx : ∀ f, x = some f → f.item = slot) :
        Agree G { s with formatter := { s.formatter with queue := rest, inFlight := x } } := by
      refine h.setRefresh (fun g => ?_) (fun g k hk => (h.refs g).queue k (by rw [hq]; exact List.mem_cons_of_mem _ hk))
        fun g f hf _ => ?_
      · have hn := (h.refs g).once
        rw [hq] at hn
        exact (List.nodup_cons.mp hn).2
      · rw [hx f hf]
        exact (h.refs g).queue slot (by rw [hq]; exact List.mem_cons_self)
    have hnone := hrest s.formatter.inFlight fun f hf => by rw [hi] at hf; cases hf
    split
    · split
      · exact hrest _ fun f hf => by cases hf; rfl
      · exact hnone
    · exact hnone
  · exact h

theorem Item.showsQuote_forceStale (it : Item) : it.forceStale.showsQuote = it.showsQuote := by
  simp [Item.showsQuote, Item.forceStale]

theorem Agree.forceStale (h : Agree G s) (k : Nat) : Agree G (s.updItem k Item.forceStale) :=
  h.updCell k (f := fun c => { c with forcedStale := true }) fun _ => rfl

/-- An offer leaves every slot showing what it showed. -/
theorem State.showsQuoteIn_offer (s : State) (k j : Nat) : (s.offer k).showsQuoteIn j = s.showsQuoteIn j := by
  unfold State.offer
  split
  · rfl
  · split
    · split
      · have : (s.updItem k Item.forceStale).showsQuoteIn j = s.showsQuoteIn j := by
          rw [State.showsQuoteIn, State.showsQuoteIn, State.item?_updItem]
          split
          · rename_i e
            subst e
            cases s.item? j <;> simp [Item.showsQuote_forceStale]
          · rfl
        exact this
      · rfl
    · rcases State.takeRefresh_cases { s with formatter := { s.formatter with queue := s.formatter.queue ++ [k] } } with
        ⟨-, e⟩ | ⟨_, _, _, -, -, e⟩ <;> rw [e] <;> rfl

/-- An offer of a visible QUOTE (R107). -/
theorem Agree.offer (h : Agree G s) (hk : G → s.showsQuoteIn k = true) : Agree G (s.offer k) := by
  unfold State.offer
  split
  · exact h
  · rename_i hnot
    split
    · split
      · rename_i it _
        have hmark : Agree G ((s.updItem k Item.forceStale).raise (.refreshDropped it.lane)) := (h.forceStale k).raise _
        refine hmark.setRefresh (fun g => (hmark.refs g).once) (fun g => (hmark.refs g).queue) fun g f hf hd => ?_
        obtain ⟨f', hf', rfl⟩ := Option.map_eq_some_iff.mp hf
        have := (hmark.refs g).inFlight f' hf'
        split at hd <;> rename_i e
        · simp only [if_pos e]; exact this hd
        · simp only [if_neg e]; exact this hd
      · exact h
    · refine Agree.takeRefresh
        (h.setRefresh (x := s.formatter.inFlight) (fun g => ?_) (fun g j hj => ?_) fun g => (h.refs g).inFlight)
      · exact List.nodup_append.mpr ⟨(h.refs g).once, List.nodup_singleton k, fun a ha b hb => by
          rw [List.mem_singleton.mp hb]; rintro rfl; exact hnot ha⟩
      · rcases List.mem_append.mp hj with hj | hj
        · exact (h.refs g).queue j hj
        · rw [List.mem_singleton.mp hj]; exact hk g

theorem Item.showsQuote_of_shows {link : Nat} (h : it.shows link = true) : it.showsQuote = true := by
  simp only [Item.shows, Bool.and_eq_true] at h
  simp [Item.showsQuote, Content.isQuote_of_quotes it.content link h.1, h.2]

/-- A view list offered in its order (R91). -/
theorem Agree.offerView (h : Agree G s) (link : Nat) : Agree G (s.offerView link) := by
  have offers (ks : List Nat) (u : State) (hu : Agree G u) (hk : G → ∀ k ∈ ks, u.showsQuoteIn k = true) :
      Agree G (ks.foldl State.offer u) := by
    induction ks generalizing u with
    | nil => exact hu
    | cons k ks ih =>
      refine ih _ (hu.offer fun g => hk g k List.mem_cons_self) fun g j hj => ?_
      rw [State.showsQuoteIn_offer]
      exact hk g j (List.mem_cons_of_mem _ hj)
  unfold State.offerView
  split
  · rename_i r hr
    refine offers _ s h fun g k hk => ?_
    obtain ⟨it, hit, hs⟩ := any_eq_true_iff.mp ((((h.refs g).views link r hr).2 k).mp hk)
    exact any_eq_true_iff.mpr ⟨it, hit, Item.showsQuote_of_shows hs⟩
  · exact h

/-- A completed formatting (R110 to R112). -/
theorem Agree.concludeRefresh (h : Agree G s) {f : Formatting} (hf : s.formatter.inFlight = some f) :
    Agree G (s.concludeRefresh f) := by
  unfold State.concludeRefresh
  split
  · exact h
  · rename_i hd
    split
    · exact h
    · rename_i it hit
      split
      · exact h
      · split
        · refine h.updItem fun it' hit' => ⟨rfl, rfl, Option.isSome_map, fun g c hc => ?_⟩
          obtain ⟨x, hx, hq⟩ := any_eq_true_iff.mp ((h.refs g).inFlight f hf (by simpa using hd))
          cases hit'.symm.trans hx
          simp only [Item.showsQuote, Bool.and_eq_true] at hq
          obtain ⟨code, link, hcon⟩ := (Content.isQuote_iff _).mp hq.1
          obtain ⟨c', -, rfl⟩ := Option.map_eq_some_iff.mp hc
          rw [hcon]
          exact ⟨f.fields, by unfold publish; simp only; split <;> rfl⟩
        · exact (h.forceStale f.item).raise _

/-! ### The Symbol Table and the texts -/

/-- A symbol changed in neither its code, its count nor its view list. -/
theorem Agree.updSymbol (h : Agree G s) (k : Nat) {f : SymbolRec → SymbolRec}
    (hf : ∀ r, (f r).code = r.code ∧ (f r).refCount = r.refCount ∧ (f r).viewList = r.viewList) :
    Agree G (s.updSymbol k f) := by
  have found {link : Nat} {r : SymbolRec} (hr : (s.updSymbol k f).symbol? link = some r) :
      ∃ r', s.symbol? link = some r' ∧ r.refCount = r'.refCount ∧ r.viewList = r'.viewList := by
    rw [State.symbol?_updSymbol_map] at hr
    obtain ⟨r', hr', rfl⟩ := Option.map_eq_some_iff.mp hr
    refine ⟨r', hr', ?_⟩
    split
    · exact (hf r').2
    · exact ⟨rfl, rfl⟩
  refine ⟨h.lists.of_guides rfl fun _ => .refl _, fun g => ?_⟩
  obtain ⟨hsym, htext, hfit, hname, hview, hcap, hdisp, honce, hqueue, hflight⟩ := h.refs g
  refine ⟨(tableRising_update f).trans hsym, htext, fun j it hit => ?_, fun link r hr => ?_, fun link r hr => ?_, hcap, hdisp,
    honce, hqueue, hflight⟩
  · obtain ⟨hs, ht, hc⟩ := hfit j it hit
    refine ⟨fun code link hcon => ?_, ht, hc⟩
    obtain ⟨r, hr, hcode⟩ := hs code link hcon
    refine ⟨_, (State.symbol?_updSymbol_map s k f link).trans (congrArg _ hr), ?_⟩
    split
    · exact (hf r).1.trans hcode
    · exact hcode
  · obtain ⟨r', hr', hc, -⟩ := found hr
    exact hc.trans (hname link r' hr')
  · obtain ⟨r', hr', -, hv⟩ := found hr
    rw [hv]
    exact hview link r' hr'

theorem Agree.checkSymbol (h : Agree G s) (k : Nat) : Agree G (s.checkSymbol k) := by
  unfold State.checkSymbol
  split
  · split
    · exact Agree.raise (Agree.offerView (h.updSymbol k (by exact fun _ => ⟨rfl, rfl, rfl⟩)) k) _
    · exact h
  · exact h

theorem Agree.checkSymbols (h : Agree G s) : Agree G s.checkSymbols := by
  have checks (ks : List Nat) (u : State) (hu : Agree G u) : Agree G (ks.foldl State.checkSymbol u) := by
    induction ks generalizing u with
    | nil => exact hu
    | cons k ks ih => exact ih _ (hu.checkSymbol k)
  exact checks _ s h

/-! ### Frame starts and the clock -/

theorem State.compositorFrame_stock (s : State) : s.compositorFrame.stock = s.stock := by
  unfold State.compositorFrame
  split
  · rfl
  · simp only
    split <;> rfl
  · rfl

theorem Agree.frameAct (h : Agree G s) (freezing : Bool) (a : FrameAct) : Agree G (s.frameAct freezing a) := by
  cases a with
  | lane i => exact h.answerFrame i
  | symbols => exact h.checkSymbols
  | freeze i =>
    unfold State.frameAct
    simp only
    split
    · exact h.steer (.freezeLane s i)
    · exact h

/-- A frame start (R130). -/
theorem Agree.frameStart (h : Agree G s) (order : FrameOrder) (at_ : Nat) : Agree G (s.frameStart order at_) := by
  have acts (freezing : Bool) (as : FrameOrder) (u : State) (hu : Agree G u) :
      Agree G (as.foldl (State.frameAct freezing) u) := by
    induction as generalizing u with
    | nil => exact hu
    | cons a as ih => exact ih _ (hu.frameAct freezing a)
  refine Agree.of_stock (acts _ _ _ ?_) (State.compositorFrame_stock _)
  exact h.of_stock rfl

theorem Agree.atClock (h : Agree G s) (c : FrameClock) : Agree G { s with clock := c } := h.of_stock rfl

theorem Agree.ite {p : Prop} [Decidable p] (hs : Agree G s) (ht : Agree G t) : Agree G (if p then s else t) := by
  split
  · exact hs
  · exact ht

theorem Agree.periodExpiry (h : Agree G s) (order : FrameOrder) : Agree G (s.periodExpiry order) :=
  .ite h (h.frameStart order _)

theorem Agree.windowEnd (h : Agree G s) (order : FrameOrder) : Agree G (s.windowEnd order) :=
  .ite ((h.frameStart order _).of_stock rfl) h

theorem Agree.countPulse (h : Agree G s) (order : FrameOrder) : Agree G (s.countPulse order) := by
  unfold State.countPulse
  refine .ite (.ite (Agree.frameStart ?_ order _) ?_) ?_ <;> exact h.of_stock rfl

theorem Agree.lockedPulse (h : Agree G s) (order : FrameOrder) : Agree G (s.lockedPulse order) := by
  unfold State.lockedPulse
  refine .ite (Agree.frameStart ?_ order _) ?_ <;> exact h.of_stock rfl

/-- A reference pulse (R131 to R134). -/
theorem Agree.pulseAt (h : Agree G s) (order : FrameOrder) : Agree G (s.pulseAt order) := by
  unfold State.pulseAt
  split
  · exact h
  · exact h.countPulse order
  · exact h.countPulse order
  · exact .ite (((h.atClock _).windowEnd order |>.atClock _).countPulse order) (h.lockedPulse order)

/-- The counted change of an input starts the lanes armed on it (R139). -/
theorem Steers.countedChange (s : State) (late : LaneSet) (n : GpiId) : Steers s (s.countedChange late n) := by
  unfold State.countedChange
  extract_lets g s1
  have hset : Steers s s1 := .of_stock rfl
  split
  · exact hset.raise.trans (.foldl (.meetCondition late) _ _)
  · exact hset

theorem Steers.levelChange (s : State) (n : GpiId) : Steers s (s.levelChange n) := by
  unfold State.levelChange
  split
  · exact .of_stock rfl
  · refine Steers.trans (t := if s.gpi[n].due.any (fun t => decide (t ≤ s.clock.now)) then s.countedChange 0 n else s)
      ?_ (.of_stock rfl)
    split
    · exact .countedChange s 0 n
    · exact .refl s

/-! ### The receiver -/

theorem State.offerFrame_stock (s : State) (f : Frame) : (s.offerFrame f).stock = s.stock := by
  unfold State.offerFrame
  split
  · rfl
  · simp only
    split <;> rfl

theorem State.examine_stock (s : State) (tick fuel : Nat) (bs : List Byte) : (State.examine tick fuel bs s).stock = s.stock := by
  induction fuel generalizing bs s with
  | zero => rfl
  | succ fuel ih =>
    cases bs with
    | nil => rfl
    | cons b rest =>
      unfold State.examine
      split
      · rw [ih]; split <;> rfl
      · simp only
        split_ifs <;> simp only [ih, State.offerFrame_stock] <;> rfl

theorem State.dropFrame_stock (s : State) : s.dropFrame.stock = s.stock := by
  unfold State.dropFrame
  split <;> rfl

end

end Sys2Proof.Machine

namespace Sys2Proof.Machine

/-! ### Symbols and texts that come and go -/

section
variable {G : Prop} {s t : State} {k : Nat}

/-- A symbol that an item names is in the table (R43). -/
theorem State.Refs.symbol_of_named (h : s.Refs) {link : Nat} (hr : tableRising s.pool.items = true)
    (hn : s.count (Item.names link) ≠ 0) : s.symbol? link ≠ none := by
  obtain ⟨k, it, hit, hname⟩ := State.exists_of_count hr hn
  obtain ⟨code, hc⟩ := Content.quotes_iff.mp hname
  obtain ⟨r, hsym, -⟩ := (h.fits k it hit).symbol code link hc
  simp [hsym]

theorem State.Refs.text_of_captioned (h : s.Refs) {id : Nat} (hr : tableRising s.pool.items = true)
    (hn : s.count (Item.captions id) ≠ 0) : s.text? id ≠ none := by
  obtain ⟨k, it, hit, hname⟩ := State.exists_of_count hr hn
  have := (h.fits k it hit).text id (by simpa [Item.captions, Content.captions] using hname)
  exact Option.isSome_iff_ne_none.mp this

theorem State.count_of_any {p q : Item → Bool} (hpq : ∀ it, p it = true → q it = true) (hn : s.count q = 0) :
    (s.item? k).any p = false := by
  rw [Bool.eq_false_iff]
  intro h
  obtain ⟨it, hit, hp⟩ := any_eq_true_iff.mp h
  have := State.count_pos hit (hpq it hp)
  omega

theorem State.count_displays (hn : s.count (Item.captions k) = 0) : s.count (Item.displays k) = 0 := by
  have : s.count (Item.displays k) ≤ s.count (Item.captions k) := List.countP_mono_left fun x _ h => by
    rw [Item.displays, Bool.and_eq_true] at h; exact h.1
  omega

/-- Another Symbol Table, in which what items name stands as it was, and what is new is named by none. -/
theorem State.Refs.withSymbols (h : s.Refs) {y : Table SymbolRec} (hr : tableRising y = true)
    (hkeep : ∀ link, s.count (Item.names link) ≠ 0 → tableFind y link = s.symbol? link)
    (hnew : ∀ link r, tableFind y link = some r →
      s.symbol? link = some r ∨ s.count (Item.names link) = 0 ∧ r.refCount = 0 ∧ r.viewList = []) :
    ({ s with symbols := y } : State).Refs := by
  refine ⟨hr, h.texts, fun j it hit => ?_, fun link r hy => ?_, fun link r hy => ?_, h.captioned, h.displayed, h.once, h.queue,
    h.inFlight⟩
  · obtain ⟨hs, ht, hc⟩ := h.fits j it hit
    refine ⟨fun code link hcon => ?_, ht, hc⟩
    have hname : 0 < s.count (Item.names link) := State.count_pos hit (by simp [Item.names, hcon])
    obtain ⟨r, hsym, hcode⟩ := hs code link hcon
    exact ⟨r, (hkeep link (by omega)).trans hsym, hcode⟩
  · rcases hnew link r hy with hsym | ⟨hn, hcount, -⟩
    · exact h.named link r hsym
    · exact hcount.trans hn.symm
  · rcases hnew link r hy with hsym | ⟨hn, -, hviews⟩
    · exact h.views link r hsym
    · rw [hviews]
      refine ⟨List.nodup_nil, fun j => ⟨fun hj => by simp at hj, fun hj => ?_⟩⟩
      have : (s.item? j).any (Item.shows link) = false := State.count_of_any (fun it hs => by
        rw [Item.shows, Bool.and_eq_true] at hs; exact hs.1) hn
      exact absurd hj (by rw [show ({ s with symbols := y } : State).item? j = s.item? j from rfl, this]; simp)

/-- Other texts, in which what items name stands as it was, and what is new is named by none. -/
theorem State.Refs.withTexts (h : s.Refs) {y : Table TextRec} (hr : tableRising y = true)
    (hkeep : ∀ id, s.count (Item.captions id) ≠ 0 → (tableFind y id).isSome = true)
    (hnew : ∀ id r, tableFind y id = some r →
      (∃ r', s.text? id = some r' ∧ r.refCount = r'.refCount ∧ r.viewCount = r'.viewCount) ∨
        s.count (Item.captions id) = 0 ∧ r.refCount = 0 ∧ r.viewCount = 0) :
    ({ s with texts := y } : State).Refs := by
  refine ⟨h.symbols, hr, fun j it hit => ?_, h.named, h.views, fun id r hy => ?_, fun id r hy => ?_, h.once, h.queue,
    h.inFlight⟩
  · obtain ⟨hs, -, hc⟩ := h.fits j it hit
    refine ⟨hs, fun id hcon => hkeep id ?_, hc⟩
    have hname : 0 < s.count (Item.captions id) := State.count_pos hit (by simp [Item.captions, hcon])
    omega
  · rcases hnew id r hy with ⟨r', htext, hcount, -⟩ | ⟨hn, hcount, -⟩
    · exact hcount.trans (h.captioned id r' htext)
    · exact hcount.trans hn.symm
  · rcases hnew id r hy with ⟨r', htext, -, hcount⟩ | ⟨hn, -, hcount⟩
    · exact hcount.trans (h.displayed id r' htext)
    · exact hcount.trans (State.count_displays hn).symm

theorem Agree.withSymbols (h : Agree G s) {y : Table SymbolRec} (hy : G → ({ s with symbols := y } : State).Refs) :
    Agree G { s with symbols := y } := ⟨h.lists.of_guides rfl fun _ => .refl _, hy⟩

theorem Agree.withTexts (h : Agree G s) {y : Table TextRec} (hy : G → ({ s with texts := y } : State).Refs) :
    Agree G { s with texts := y } := ⟨h.lists.of_guides rfl fun _ => .refl _, hy⟩

/-- A symbol defined in the lowest free slot (R78). -/
theorem Agree.putSymbol (h : Agree G s) {limit : Nat} (hk : lowestFree s.symbols limit = some k) {r : SymbolRec}
    (hc : r.refCount = 0) (hv : r.viewList = []) : Agree G { s with symbols := tablePut s.symbols k r } := by
  refine h.withSymbols fun g => ?_
  have hr := h.refs g
  obtain ⟨-, hfree, -⟩ := (lowestFree_eq_some hr.symbols).mp hk
  have hnone : s.count (Item.names k) = 0 := by_contra fun hn => hr.symbol_of_named h.lists.rising hn hfree
  refine hr.withSymbols (tableRising_put hr.symbols) (fun link hn => ?_) fun link r' hr' => ?_
  · rw [tableFind_put hr.symbols, if_neg (by rintro rfl; exact hn hnone)]; rfl
  · rw [tableFind_put hr.symbols] at hr'
    split at hr'
    · rename_i e
      cases hr'
      exact .inr ⟨e ▸ hnone, hc, hv⟩
    · exact .inl hr'

/-- A symbol that nothing refers to, removed (R79). -/
theorem Agree.eraseSymbol (h : Agree G s) (hk : G → ∃ r, s.symbol? k = some r ∧ r.refCount = 0) :
    Agree G { s with symbols := tableErase s.symbols k } := by
  refine h.withSymbols fun g => ?_
  have hr := h.refs g
  obtain ⟨r, hsym, hc⟩ := hk g
  have hnone : s.count (Item.names k) = 0 := (hr.named k r hsym).symm.trans hc
  refine hr.withSymbols (tableRising_erase hr.symbols) (fun link hn => ?_) fun link r' hr' => ?_
  · rw [tableFind_erase hr.symbols, if_neg (by rintro rfl; exact hn hnone)]; rfl
  · rw [tableFind_erase hr.symbols] at hr'
    split at hr'
    · cases hr'
    · exact .inl hr'

/-- A text created under a free id (R117). -/
theorem Agree.putText (h : Agree G s) (hk : s.text? k = none) {r : TextRec} (hc : r.refCount = 0) (hv : r.viewCount = 0) :
    Agree G { s with texts := tablePut s.texts k r } := by
  refine h.withTexts fun g => ?_
  have hr := h.refs g
  have hnone : s.count (Item.captions k) = 0 := by_contra fun hn => hr.text_of_captioned h.lists.rising hn hk
  refine hr.withTexts (tableRising_put hr.texts) (fun id hn => ?_) fun id r' hr' => ?_
  · rw [tableFind_put hr.texts]
    split
    · rfl
    · exact Option.isSome_iff_ne_none.mpr (hr.text_of_captioned h.lists.rising hn)
  · rw [tableFind_put hr.texts] at hr'
    split at hr'
    · rename_i e
      cases hr'
      exact .inr ⟨e ▸ hnone, hc, hv⟩
    · exact .inl ⟨r', hr', rfl, rfl⟩

/-- A text that nothing refers to, freed (R119). -/
theorem Agree.eraseText (h : Agree G s) {r : TextRec} (hk : s.text? k = some r) (hc : r.refCount = 0) :
    Agree G { s with texts := tableErase s.texts k } := by
  refine h.withTexts fun g => ?_
  have hr := h.refs g
  have hnone : s.count (Item.captions k) = 0 := (hr.captioned k r hk).symm.trans hc
  refine hr.withTexts (tableRising_erase hr.texts) (fun id hn => ?_) fun id r' hr' => ?_
  · rw [tableFind_erase hr.texts, if_neg (by rintro rfl; exact hn hnone)]
    exact Option.isSome_iff_ne_none.mpr (hr.text_of_captioned h.lists.rising hn)
  · rw [tableFind_erase hr.texts] at hr'
    split at hr'
    · cases hr'
    · exact .inl ⟨r', hr', rfl, rfl⟩

/-- A text changed in neither of its counts (R118). -/
theorem Agree.updText (h : Agree G s) (k : Nat) {f : TextRec → TextRec}
    (hf : ∀ r, (f r).refCount = r.refCount ∧ (f r).viewCount = r.viewCount) : Agree G (s.updText k f) := by
  refine h.withTexts fun g => ?_
  have hr := h.refs g
  have hfind (id : Nat) : tableFind (tableUpdate s.texts k f) id = (s.text? id).map fun r => if id = k then f r else r :=
    s.text?_updText_map k f id
  refine hr.withTexts ((tableRising_update f).trans hr.texts) (fun id hn => ?_) fun id r hr' => ?_
  · rw [hfind, Option.isSome_map]
    exact Option.isSome_iff_ne_none.mpr (hr.text_of_captioned h.lists.rising hn)
  · rw [hfind] at hr'
    obtain ⟨r', htext, rfl⟩ := Option.map_eq_some_iff.mp hr'
    refine .inl ⟨r', htext, ?_⟩
    split
    · exact hf r'
    · exact ⟨rfl, rfl⟩

/-! ### Requests whose rule touches no item, symbol, text or refresh -/

/-- A rule that keeps the agreement whatever its request carries. -/
def RuleAgrees (rule : List Byte → State → State × Reply) : Prop :=
  ∀ (G : Prop) (b : List Byte) (s : State), Agree G s → Agree G (rule b s).1

theorem withGroup_agree {b : List Byte} {rule : GroupId → State × Reply} (h : Agree G s)
    (hr : ∀ g, Agree G (rule g).1) : Agree G (withGroup b s rule).1 := by
  unfold withGroup; split
  · exact hr _
  · exact h

theorem withLane_agree {b : List Byte} {rule : LaneId → State × Reply} (h : Agree G s)
    (hr : ∀ i, Agree G (rule i).1) : Agree G (withLane b s rule).1 := by
  unfold withLane; split
  · exact hr _
  · exact h

theorem withCue_agree {b : List Byte} {rule : LaneId → CueId → State × Reply} (h : Agree G s)
    (hr : ∀ i k, Agree G (rule i k).1) : Agree G (withCue b s rule).1 := by
  unfold withCue; split
  · exact hr _ _
  · exact h

theorem withItem_agree {b : List Byte} {rule : Nat → Item → State × Reply} (h : Agree G s)
    (hr : ∀ k it, s.item? k = some it → Agree G (rule k it).1) : Agree G (withItem b s rule).1 := by
  unfold withItem
  split
  · rename_i k it hres
    refine hr k it ?_
    unfold State.resolve at hres
    simp only at hres
    split at hres
    · split at hres
      · cases hres; assumption
      · cases hres
    · cases hres
  · exact h

theorem withSymbol_agree {b : List Byte} {rule : Nat → SymbolRec → State × Reply} (h : Agree G s)
    (hr : ∀ k r, (G → s.symbol? k = some r) → Agree G (rule k r).1) : Agree G (withSymbol b s rule).1 := by
  unfold withSymbol
  split
  · rename_i k r hfind
    exact hr k r fun g => (findCode_eq_some (h.refs g).symbols hfind).1
  · exact h

theorem identRule_agrees : RuleAgrees identRule := fun _ _ _ h => h

theorem eventEnableRule_agrees : RuleAgrees eventEnableRule := fun _ _ _ h => withGroup_agree h fun _ => h.of_stock rfl

theorem eventPriorityRule_agrees : RuleAgrees eventPriorityRule := fun _ _ _ h => withGroup_agree h fun _ => by
  split <;> exact h.of_stock rfl

theorem eventSummaryRule_agrees : RuleAgrees eventSummaryRule := fun _ _ _ h => h

theorem eventNextRule_agrees : RuleAgrees eventNextRule := fun _ _ _ h => by
  unfold eventNextRule; split <;> exact h.of_stock rfl

theorem eventReadRule_agrees : RuleAgrees eventReadRule := fun _ _ _ h => withGroup_agree h fun _ => h.of_stock rfl

theorem attnMaskRule_agrees : RuleAgrees attnMaskRule := fun _ _ _ h => by
  unfold attnMaskRule; split <;> exact h.of_stock rfl

theorem laneQueryRule_agrees : RuleAgrees laneQueryRule := fun _ _ _ h => withLane_agree h fun _ => h

theorem itemQueryRule_agrees : RuleAgrees itemQueryRule := fun _ _ _ h => withItem_agree h fun _ _ _ => h

theorem runListRule_agrees : RuleAgrees runListRule := fun _ _ _ h => withLane_agree h fun _ => h

theorem cueQueryRule_agrees : RuleAgrees cueQueryRule := fun _ _ _ h => withCue_agree h fun _ _ => h

theorem symQueryRule_agrees : RuleAgrees symQueryRule := fun _ _ _ h => withSymbol_agree h fun _ _ _ => h

theorem symScanRule_agrees : RuleAgrees symScanRule := fun _ _ _ h => by
  unfold symScanRule; simp only; split <;> exact h

theorem classSetupRule_agrees : RuleAgrees classSetupRule := fun _ _ _ h => by
  unfold classSetupRule; split <;> exact h.of_stock rfl

theorem templateSetRule_agrees : RuleAgrees templateSetRule := fun _ _ _ h => by
  unfold templateSetRule
  split
  · split_ifs <;> exact h.of_stock rfl
  · exact h

theorem templateQueryRule_agrees : RuleAgrees templateQueryRule := fun _ _ _ h => by
  unfold templateQueryRule; split <;> exact h

theorem faceSetupRule_agrees : RuleAgrees faceSetupRule := fun _ _ _ h => by
  unfold faceSetupRule
  simp only
  split
  · exact h
  · split_ifs <;> exact h.of_stock rfl

theorem glyphStart_agree (h : Agree G s) (k : Fin 4) (code advance : Nat) (data : List Byte) :
    Agree G (glyphStart s k code advance data).1 := by
  unfold glyphStart; simp only; split_ifs <;> exact h.of_stock rfl

theorem glyphContinue_agree (h : Agree G s) (k : Fin 4) (code offset : Nat) (data : List Byte) :
    Agree G (glyphContinue s k code offset data).1 := by
  unfold glyphContinue
  simp only
  split
  · exact h
  · split_ifs <;> exact h.of_stock rfl

theorem glyphLoadRule_agrees : RuleAgrees glyphLoadRule := fun _ _ _ h => by
  unfold glyphLoadRule
  split
  · exact h
  · simp only
    split_ifs
    · exact h
    · exact glyphStart_agree h _ _ _ _
    · exact glyphContinue_agree h _ _ _ _

theorem storeQueryRule_agrees : RuleAgrees storeQueryRule := fun _ _ _ h => h

theorem timingQueryRule_agrees : RuleAgrees timingQueryRule := fun _ _ _ h => h

theorem gpiSetupRule_agrees : RuleAgrees gpiSetupRule := fun _ _ _ h => by
  unfold gpiSetupRule; split <;> exact h.of_stock rfl

theorem paletteSetRule_agrees : RuleAgrees paletteSetRule := fun _ _ _ h => by
  unfold paletteSetRule
  simp only
  split
  · exact h
  · split_ifs <;> exact h.of_stock rfl

theorem outputSetupRule_agrees : RuleAgrees outputSetupRule := fun _ _ _ h => by
  unfold outputSetupRule; split <;> exact h.of_stock rfl

theorem timingSetupRule_agrees (order : FrameOrder) : RuleAgrees (timingSetupRule order) := fun _ _ _ h => by
  unfold timingSetupRule
  simp only
  split
  · exact h
  · split
    · exact h
    · exact .ite ((h.atClock _).frameStart order _) (h.atClock _)

/-! ### Symbol and text requests -/

theorem symDefineRule_agrees : RuleAgrees symDefineRule := fun _ _ _ h => by
  unfold symDefineRule
  simp only
  split
  · exact h
  · split_ifs
    · exact h
    · exact h
    · split
      · exact h
      · rename_i hk
        exact h.putSymbol hk rfl rfl

theorem symPriceRule_agrees : RuleAgrees symPriceRule := fun _ _ s h => withSymbol_agree h fun k r _ => by
  have hpriced (seq : BitVec 16) (price : Nat) (counter : BitVec 32) :
      Agree _ (s.updSymbol k fun r => r.priced price seq counter) := h.updSymbol k fun _ => ⟨rfl, rfl, rfl⟩
  simp only
  split_ifs
  · exact h
  · exact h
  · exact h
  · exact ((hpriced _ _ _).raise _).offerView k
  · exact (hpriced _ _ _).offerView k

theorem symReferenceRule_agrees : RuleAgrees symReferenceRule := fun _ _ _ h => withSymbol_agree h fun k r _ => by
  simp only
  split_ifs
  · exact h
  · refine Agree.offerView (h.updSymbol k ?_) k
    exact fun _ => ⟨rfl, rfl, rfl⟩

theorem symHaltRule_agrees : RuleAgrees symHaltRule := fun _ _ _ h => withSymbol_agree h fun k r _ => by
  split_ifs
  · exact h
  · refine Agree.offerView (h.updSymbol k ?_) k
    exact fun _ => ⟨rfl, rfl, rfl⟩

theorem symResumeRule_agrees : RuleAgrees symResumeRule := fun _ _ _ h => withSymbol_agree h fun k r _ => by
  split_ifs
  · refine Agree.offerView (h.updSymbol k ?_) k
    exact fun _ => ⟨rfl, rfl, rfl⟩
  · exact h

theorem symRemoveRule_agrees : RuleAgrees symRemoveRule := fun _ _ _ h => withSymbol_agree h fun k r hk => by
  split_ifs with hc
  · exact h
  · exact h.eraseSymbol fun g => ⟨r, hk g, by omega⟩

theorem textCreateRule_agrees : RuleAgrees textCreateRule := fun _ _ s h => by
  unfold textCreateRule
  simp only
  split_ifs with _ hk
  · exact h
  · exact h
  · exact h
  · exact h.putText (by simpa using hk) rfl rfl

theorem textWriteRule_agrees : RuleAgrees textWriteRule := fun _ _ _ h => by
  unfold textWriteRule
  simp only
  split
  · exact h
  · split_ifs
    · exact h
    · exact h
    · refine h.updText _ ?_
      exact fun _ => ⟨rfl, rfl⟩

theorem textFreeRule_agrees : RuleAgrees textFreeRule := fun _ _ _ h => by
  unfold textFreeRule
  simp only
  split
  · exact h
  · rename_i r hk
    split_ifs with hc
    · exact h
    · exact h.eraseText hk (by omega)

end

end Sys2Proof.Machine

namespace Sys2Proof.Machine

/-! ### Lane requests -/

section
variable {G : Prop} {s t : State} {i : LaneId} {k : Nat} {it : Item}

theorem laneSetupRule_agrees : RuleAgrees laneSetupRule := fun _ _ s h => withLane_agree h fun i => by
  split
  · exact h
  · rename_i hu
    split
    · exact h
    · split
      · exact h
      · refine h.setLane ⟨rfl, rfl, fun _ => .inl ?_, fun hs => by cases hs⟩
        cases hs : (s.lane i).state <;> simp [Lane.inUse, hs] at hu <;> simp [Lane.isBare, hs]

/-- The queued items of a lane freed: none is queued any more (R17, R31). -/
theorem State.Lists.queued_freeItems (h : s.Lists) (i : LaneId) :
    ((s.freeItems (s.lane i).queued).lane i).queued = [] := by
  have ht : Agree False (s.freeItems (s.lane i).queued) := Agree.freeItems ⟨h, False.elim⟩ _
  refine List.eq_nil_iff_forall_not_mem.mpr fun k hk => ?_
  rw [ht.lists.queued, State.freeItems_item _ h.rising] at hk
  split at hk
  · cases hk
  · rename_i hnot
    exact hnot ((h.queued i k).mpr hk)

theorem laneOffRule_agrees : RuleAgrees laneOffRule := fun _ _ s h => withLane_agree h fun i => by
  split
  · rename_i hs
    obtain ⟨v, q, hl⟩ := State.freeItems_lane (s.lane i).queued i s
    refine (h.freeItems _).setLane ⟨rfl, rfl, fun _ => .inl ?_, fun _ => .inr (h.lists.queued_freeItems i)⟩
    rw [hl]
    simp [Lane.isBare, hs]
  · exact h

theorem startNow_agree (h : Agree G s) (i : LaneId) : Agree G (startNow s i).1 := by
  have unawake {st : LaneState} (hs : (s.lane i).state = st) (hst : st.mayShow = false) : ¬ (s.lane i).Awake :=
    fun ha => ha.ne hst hs
  unfold startNow
  simp only
  split
  · rename_i hs
    exact h.steer (.startFrom s i .idle (.inl (unawake hs rfl)))
  · exact h.steer (.startFrom s i .stopped (.inr rfl))
  · exact h.steer (.startArmed s i)
  · split
    · exact h.steer (.setLane_raise rfl rfl rfl)
    · exact h
  all_goals exact h

/-- A lane armed from IDLE shows nothing, as it did there (R4, R69). -/
theorem armRule_agree (h : Agree G s) (i : LaneId) (code gpi mask : Nat) : Agree G (armRule s i code gpi mask).1 := by
  unfold armRule
  split
  · exact h
  · rename_i r hr
    split
    · exact h
    · refine h.setLane ⟨rfl, rfl, fun hb => .inl ?_, fun hs => by cases hs⟩
      cases hs : (s.lane i).state <;> rw [hs] at hr <;> cases hr <;> simp [Lane.isBare, hs] at hb ⊢

theorem laneStartRule_agrees : RuleAgrees laneStartRule := fun _ _ _ h => withLane_agree h fun i => by
  simp only
  split_ifs
  · exact h
  · exact startNow_agree h i
  · exact armRule_agree h i _ _ _

theorem laneStopRule_agrees (late : LaneSet) : RuleAgrees (laneStopRule late) := fun _ _ _ h => withLane_agree h fun i => by
  split
  · exact h
  · split
    · rename_i u hu
      exact h.steer (.applyStop hu)
    · exact h

theorem laneSpeedRule_agrees : RuleAgrees laneSpeedRule := fun _ _ _ h => withLane_agree h fun i => by
  split
  · exact h
  · exact h.steer (.setLane_state rfl rfl rfl rfl)

theorem laneStageRule_agrees : RuleAgrees laneStageRule := fun _ _ _ h => withLane_agree h fun i => by
  simp only
  split_ifs
  · exact h
  · exact h.steer (.setLane_state rfl rfl rfl rfl)
  · exact h
  · exact h.steer (.setLane_state rfl rfl rfl rfl)

theorem laneResetRule_agrees : RuleAgrees laneResetRule := fun _ _ s h => withLane_agree h fun i => by
  split
  · exact h
  · have hnone := State.freeItems_all (i := i) h.lists.listsAgree
    refine (h.freeItems _).setLane ⟨rfl, rfl, fun _ => .inr ?_, fun hs => by cases hs⟩
    rw [hnone]

theorem holdReleaseRule_agrees : RuleAgrees holdReleaseRule := fun _ _ s h => withLane_agree h fun i => by
  split
  · exact h.steer (.endHold s i)
  · exact h

/-! ### Item requests -/

/-- What a new item names is there (R44). -/
theorem fits_of_contentOf {kind : Nat} {bytes : List Byte} {c : Content} (h : s.Refs) (hc : contentOf s kind bytes = .ok c)
    (it : Item) (hcon : it.content = c) (hcell : it.cell = none) : s.Fits it := by
  subst hcon
  refine ⟨fun code link hq => ?_, fun id ht => ?_, fun _ hx => by rw [hcell] at hx; cases hx⟩ <;> unfold contentOf at hc <;>
    split at hc
  · split at hc <;> simp only [Except.ok.injEq, reduceCtorEq] at hc
    rename_i slot r hfind
    rw [hq] at hc
    cases hc
    exact ⟨r, findCode_eq_some h.symbols hfind⟩
  · split at hc <;> simp only [Except.ok.injEq, reduceCtorEq] at hc
    rw [hq] at hc; cases hc
  · rw [Except.ok.injEq, hq] at hc; cases hc
  · split at hc <;> simp only [Except.ok.injEq, reduceCtorEq] at hc
    rw [ht] at hc; cases hc
  · split at hc <;> simp only [Except.ok.injEq, reduceCtorEq] at hc
    rename_i r htext
    rw [ht] at hc
    cases hc
    simp [htext]
  · rw [Except.ok.injEq, ht] at hc; cases hc

/-- An item made and put in the queue of its lane (R29, R43, R44). -/
theorem makeItem_agree (h : Agree G s) {b bytes : List Byte} {off kind : Nat} {ink : Fin 16} {c : Content}
    {place : Nat → Lane → Lane} (hoff : (s.lane i).state ≠ .off) (hc : contentOf s kind bytes = .ok c)
    (hp : ∀ slot, ∃ q, place slot (s.lane i) = { s.lane i with queued := q } ∧ q.Perm (slot :: (s.lane i).queued)) :
    Agree G (makeItem s i b off ink c place).1 := by
  cases hl : lowestFree s.pool.items Config.itemSlots with
  | none => rw [makeItem, hl]; exact h
  | some slot =>
    obtain ⟨hslot, hfree, hlow⟩ := (lowestFree_eq_some h.lists.rising).mp hl
    obtain ⟨q, hq, hperm⟩ := hp slot
    rw [makeItem_made h.lists.rising hslot hfree hlow, hq]
    exact h.putItem (it := newItem i b off ink c) hfree hslot rfl rfl hperm hoff fun g =>
      fits_of_contentOf (h.refs g) hc _ rfl rfl

theorem insertAfter_perm {x new : Nat} {xs : List Nat} (h : x ∈ xs) : (insertAfter x new xs).Perm (new :: xs) := by
  induction xs with
  | nil => cases h
  | cons y xs ih =>
    rw [insertAfter]
    split
    · exact List.Perm.swap new y xs
    · rename_i hne
      exact ((ih ((List.mem_cons.mp h).resolve_left (Ne.symm hne))).cons y).trans (List.Perm.swap new y xs)

/-- A place in the queue takes the new item in and keeps the others (R45). -/
theorem placeAt_perm (h : s.Lists) {n : Nat} {place : Nat → Lane → Lane} (hp : placeAt s i n = .ok place) (slot : Nat) :
    ∃ q, place slot (s.lane i) = { s.lane i with queued := q } ∧ q.Perm (slot :: (s.lane i).queued) := by
  have front : ∃ q, atFront slot (s.lane i) = { s.lane i with queued := q } ∧ q.Perm (slot :: (s.lane i).queued) :=
    ⟨_, rfl, .refl _⟩
  by_cases hn : n = 0xFFFF
  · rw [placeAt_front hn] at hp; cases hp; exact front
  · by_cases hit : s.item? (n % 2048) = none ∨ s.pool.generation (n % 2048) ≠ n / 2048
    · rw [placeAt_noItem hn hit] at hp; cases hp
    · rw [not_or, not_not] at hit
      obtain ⟨p, hit', hg⟩ : ∃ p, s.item? (n % 2048) = some p ∧ _ :=
        ⟨_, (Option.ne_none_iff_exists'.mp hit.1).choose_spec, hit.2⟩
      rw [placeAt_item hn hit' hg] at hp
      split at hp
      · cases hp
      · rename_i hlane
        split at hp
        · split at hp <;> cases hp
          exact front
        · rename_i hv
          cases hp
          refine ⟨_, rfl, insertAfter_perm ?_⟩
          rw [h.queued, hit']
          have hc : p.cell = none := by simpa [Item.isVisible] using hv
          simp [Item.waits, hc, not_not.mp hlane]

theorem itemAppendRule_agrees : RuleAgrees itemAppendRule := fun _ _ s h => withLane_agree h fun i => by
  split
  · exact h
  · rename_i hoff
    split
    · exact h
    · split
      · exact h
      · rename_i hc
        exact makeItem_agree h hoff hc fun slot => ⟨_, rfl, List.perm_append_singleton slot _⟩

theorem itemInsertRule_agrees : RuleAgrees itemInsertRule := fun _ _ s h => withLane_agree h fun i => by
  split
  · exact h
  · rename_i hoff
    split
    · exact h
    · split
      · exact h
      · rename_i hplace
        split
        · exact h
        · rename_i hc
          exact makeItem_agree h hoff hc (placeAt_perm h.lists hplace)

theorem itemReplaceRule_agrees : RuleAgrees itemReplaceRule := fun _ _ s h => withItem_agree h fun k it hit => by
  split
  · exact h
  · split
    · exact h
    · split
      · exact h
      · rename_i hv
        have hcell : it.cell = none := by simpa [Item.isVisible] using hv
        split
        · exact h
        · rename_i c hc
          exact h.replace hit hcell c _ fun g => fits_of_contentOf (h.refs g) hc _ rfl hcell

/-- The passes of an item changed (R47, R48). -/
theorem Agree.setPasses (h : Agree G s) (k n : Nat) : Agree G (s.updItem k fun it => { it with passes := n }) :=
  h.updItem fun it hit => ⟨rfl, rfl, rfl, fun g c hc => ((h.refs g).fits k it hit).cell c hc⟩

theorem itemRemoveRule_agrees : RuleAgrees itemRemoveRule := fun _ _ _ h => withItem_agree h fun k it _ => by
  split
  · exact h.setPasses k 1
  · exact h.freeItem k

theorem itemPassesRule_agrees : RuleAgrees itemPassesRule := fun _ _ _ h => withItem_agree h fun k _ _ => h.setPasses k _

theorem runClearRule_agrees : RuleAgrees runClearRule := fun _ _ _ h => withLane_agree h fun _ => h.freeItems _

/-! ### Cue requests -/

theorem Lane.dropCueTarget_keeps (l : Lane) (k : CueId) : ∃ ts, l.dropCueTarget k = { l with targets := ts } := by
  unfold Lane.dropCueTarget
  split
  · exact ⟨_, rfl⟩
  · exact ⟨l.targets, rfl⟩

theorem Lane.takeCue_keeps (l : Lane) (k : CueId) (c : Cue) :
    ∃ ts cs, l.takeCue k c = { l with targets := ts, cues := cs } := by
  obtain ⟨ts, e⟩ := l.dropCueTarget_keeps k
  unfold Lane.takeCue
  rw [e]
  simp only
  split
  · exact ⟨_, _, rfl⟩
  · exact ⟨_, _, rfl⟩

theorem cueSetRule_agrees : RuleAgrees cueSetRule := fun _ _ s h => withCue_agree h fun i k => by
  split
  · exact h
  · split
    · exact h
    · rename_i c _
      split
      · exact h
      · obtain ⟨ts, cs, e⟩ := (s.lane i).takeCue_keeps k c
        refine h.steer ?_
        rw [accept_fst, State.updLane_eq, e]
        exact .setLane_state rfl rfl rfl rfl

theorem cueClearRule_agrees : RuleAgrees cueClearRule := fun _ _ s h => withCue_agree h fun i k => by
  split
  · obtain ⟨ts, e⟩ := (s.lane i).dropCueTarget_keeps k
    refine h.steer ?_
    rw [accept_fst, State.updLane_eq, e]
    exact .setLane_state rfl rfl rfl rfl
  · exact h

/-! ### Resets and the output -/

/-- A state with no item and no run list. -/
structure State.Bare (s : State) : Prop where
  items : s.pool.items = []
  lists : ∀ i, (s.lane i).visible = [] ∧ (s.lane i).queued = []

theorem State.Bare.agree (h : s.Bare) (hr : G → s.Refs) : Agree G s := by
  have hitem (k : Nat) : s.item? k = none := by rw [State.item?, h.items]; rfl
  refine ⟨⟨by rw [h.items]; rfl, fun k it hit => ?_, fun j => ?_, fun j k => ?_, fun j k => ?_, fun j _ => (h.lists j).1,
    fun j _ => (h.lists j).2⟩, hr⟩
  · rw [hitem] at hit; cases hit
  · rw [(h.lists j).1, (h.lists j).2]; exact List.nodup_nil
  · rw [(h.lists j).1, hitem]; simp
  · rw [(h.lists j).2, hitem]; simp

/-- With no item, no symbol and no refresh, counts are all 0. -/
theorem State.Bare.refs (h : s.Bare) (hs : s.symbols = []) (hr : tableRising s.texts = true)
    (ht : ∀ id r, s.text? id = some r → r.refCount = 0 ∧ r.viewCount = 0) (hq : s.formatter.queue = [])
    (hf : s.formatter.inFlight = none) : s.Refs := by
  have hitem (k : Nat) : s.item? k = none := by rw [State.item?, h.items]; rfl
  have hcount (p : Item → Bool) : s.count p = 0 := by rw [State.count, h.items]; rfl
  have hsymbol (k : Nat) : s.symbol? k = none := by rw [State.symbol?, hs]; rfl
  refine ⟨by rw [hs]; rfl, hr, fun k it hit => ?_, fun k r hk => ?_, fun k r hk => ?_, fun id r hid => ?_, fun id r hid => ?_,
    by rw [hq]; exact List.nodup_nil, fun k hk => ?_, fun f hf' => ?_⟩
  · rw [hitem] at hit; cases hit
  · rw [hsymbol] at hk; cases hk
  · rw [hsymbol] at hk; cases hk
  · rw [hcount]; exact (ht id r hid).1
  · rw [hcount]; exact (ht id r hid).2
  · rw [hq] at hk; cases hk
  · rw [hf] at hf'; cases hf'

theorem Pool.softReset_items (p : Pool) : p.softReset.items = [] := by
  have bumps (ks : List Nat) (q : Pool) (hq : q.items = []) : (ks.foldl Pool.bump q).items = [] := by
    induction ks generalizing q with
    | nil => exact hq
    | cons k ks ih => exact ih _ hq
  exact bumps _ _ rfl

theorem tableFind_map {α β : Type} (t : Table α) (f : α → β) (k : Nat) :
    tableFind (t.map fun (j, v) => (j, f v)) k = (tableFind t k).map f := by
  induction t with
  | nil => rfl
  | cons p t ih =>
    obtain ⟨j, v⟩ := p
    by_cases hj : j = k
    · simp [tableFind, hj]
    · simpa [tableFind, hj] using ih

theorem tableRising_map {α β : Type} (t : Table α) (f : α → β) :
    tableRising (t.map fun (j, v) => (j, f v)) = tableRising t := by
  have : (t.map fun (j, v) => (j, f v)).map Prod.fst = t.map Prod.fst := by
    rw [List.map_map]; rfl
  unfold tableRising
  rw [this]

/-- A text that no item names (R120). -/
def TextRec.unread (r : TextRec) : TextRec := { r with refCount := 0, viewCount := 0 }

theorem deviceResetRule_agrees : RuleAgrees deviceResetRule := fun G _ s h => by
  have hbare : s.softReset.Bare := ⟨s.pool.softReset_items, fun i => by simp [State.lane, State.softReset, Lane.softReset]⟩
  have htexts : s.softReset.texts = s.texts.map fun (j, r) => (j, r.unread) := rfl
  refine hbare.agree fun g => hbare.refs rfl ?_ (fun id r hr => ?_) rfl rfl
  · rw [htexts, tableRising_map]; exact (h.refs g).texts
  · rw [State.text?, htexts, tableFind_map] at hr
    obtain ⟨r', -, rfl⟩ := Option.map_eq_some_iff.mp hr
    exact ⟨rfl, rfl⟩

theorem powerOn_agree (G : Prop) (asserted : Bool) (tick : Nat) (levels : Vector Bool 4) (waiting : List Instr) :
    Agree G (State.powerOn asserted tick levels waiting) := by
  have hbare : (State.powerOn asserted tick levels waiting).Bare :=
    ⟨rfl, fun i => by simp [State.lane, State.powerOn, Lane.powerOn]⟩
  exact hbare.agree fun _ => hbare.refs rfl rfl (fun id r hr => by cases hr) rfl rfl

theorem outputResumeRule_agrees : RuleAgrees outputResumeRule := fun _ _ s h => by
  unfold outputResumeRule
  split
  · have hthaw (c : Compositor) (i : LaneId) :
        ({ s with lanes := s.lanes.map Lane.thaw, compositor := c } : State).lane i = (s.lane i).thaw := by simp [State.lane]
    refine h.of_guides (t := State.raise _ _) rfl fun i => ?_
    rw [State.raise_lane, hthaw]
    unfold Lane.thaw
    split
    · exact .of_awake rfl rfl rfl
    · exact .refl _
  · exact h
  · exact h

/-! ### Commands -/

theorem Agree.ofHand {f : Frame} (h : Agree G s) (hu : s.inHand f = some t) : Agree G t := by
  unfold State.inHand at hu
  split at hu
  · split at hu <;> cases hu
    exact h
  · split at hu <;> cases hu
    exact h.of_stock rfl

/-- A request is served by its rule, refused, or not served at all. -/
theorem Agree.serve {k tag : Byte} {b : List Byte} {rule : List Byte → State → State × Reply} (h : Agree G s)
    (hr : RuleAgrees rule) : Agree G (serve k tag b rule s) := by
  unfold Machine.serve
  split
  · exact h
  · rename_i u hu
    have hhand := h.ofHand hu
    split
    · exact (hr G b u hhand).of_stock rfl
    · exact hhand.of_stock rfl

/-- Every command keeps the agreement of run lists and pool, and that of references where it holds. -/
theorem exec_keeps_agree {c : Instr} (h : Agree G s) (he : exec c s = .next t) : Agree G t := by
  cases c with
  | ident => cases he; exact h.serve identRule_agrees
  | deviceReset => cases he; exact Agree.serve (h.atClock _) deviceResetRule_agrees
  | eventEnable => cases he; exact h.serve eventEnableRule_agrees
  | eventPriority => cases he; exact h.serve eventPriorityRule_agrees
  | eventSummary => cases he; exact h.serve eventSummaryRule_agrees
  | eventNext => cases he; exact h.serve eventNextRule_agrees
  | eventRead => cases he; exact h.serve eventReadRule_agrees
  | attnMask => cases he; exact h.serve attnMaskRule_agrees
  | laneSetup => cases he; exact h.serve laneSetupRule_agrees
  | laneOff => cases he; exact h.serve laneOffRule_agrees
  | laneStart => cases he; exact h.serve laneStartRule_agrees
  | laneStop late => cases he; exact h.serve (laneStopRule_agrees late)
  | laneSpeed => cases he; exact h.serve laneSpeedRule_agrees
  | laneStage => cases he; exact h.serve laneStageRule_agrees
  | laneReset => cases he; exact h.serve laneResetRule_agrees
  | laneQuery => cases he; exact h.serve laneQueryRule_agrees
  | itemAppend => cases he; exact h.serve itemAppendRule_agrees
  | itemInsert => cases he; exact h.serve itemInsertRule_agrees
  | itemReplace => cases he; exact h.serve itemReplaceRule_agrees
  | itemRemove => cases he; exact h.serve itemRemoveRule_agrees
  | itemPasses => cases he; exact h.serve itemPassesRule_agrees
  | runClear => cases he; exact h.serve runClearRule_agrees
  | itemQuery => cases he; exact h.serve itemQueryRule_agrees
  | runList => cases he; exact h.serve runListRule_agrees
  | holdRelease => cases he; exact h.serve holdReleaseRule_agrees
  | cueSet => cases he; exact h.serve cueSetRule_agrees
  | cueClear => cases he; exact h.serve cueClearRule_agrees
  | cueQuery => cases he; exact h.serve cueQueryRule_agrees
  | symDefine => cases he; exact h.serve symDefineRule_agrees
  | symPrice => cases he; exact h.serve symPriceRule_agrees
  | symReference => cases he; exact h.serve symReferenceRule_agrees
  | symHalt => cases he; exact h.serve symHaltRule_agrees
  | symResume => cases he; exact h.serve symResumeRule_agrees
  | symRemove => cases he; exact h.serve symRemoveRule_agrees
  | symQuery => cases he; exact h.serve symQueryRule_agrees
  | symScan => cases he; exact h.serve symScanRule_agrees
  | classSetup => cases he; exact h.serve classSetupRule_agrees
  | templateSet => cases he; exact h.serve templateSetRule_agrees
  | templateQuery => cases he; exact h.serve templateQueryRule_agrees
  | textCreate => cases he; exact h.serve textCreateRule_agrees
  | textWrite => cases he; exact h.serve textWriteRule_agrees
  | textFree => cases he; exact h.serve textFreeRule_agrees
  | faceSetup => cases he; exact h.serve faceSetupRule_agrees
  | glyphLoad => cases he; exact h.serve glyphLoadRule_agrees
  | storeQuery => cases he; exact h.serve storeQueryRule_agrees
  | timingSetup _ order => cases he; exact Agree.serve (h.atClock _) (timingSetupRule_agrees order)
  | timingQuery => cases he; exact h.serve timingQueryRule_agrees
  | gpiSetup => cases he; exact h.serve gpiSetupRule_agrees
  | paletteSet => cases he; exact h.serve paletteSetRule_agrees
  | outputSetup => cases he; exact h.serve outputSetupRule_agrees
  | outputResume => cases he; exact h.serve outputResumeRule_agrees
  | unknownKind kind tag body =>
    cases he
    split
    · rename_i u _ hu
      exact (h.ofHand hu).of_stock rfl
    · exact h
  | decoderTake => cases he; exact h.of_stock rfl
  | receiveByte elapsed byte =>
    cases he
    refine .ite (h.atClock _) ((?_ : Agree G _).of_stock (State.examine_stock _ _ _ _))
    exact .ite ((h.atClock _).of_stock (State.dropFrame_stock _)) (h.atClock _)
  | byteError elapsed =>
    cases he
    exact .ite (h.atClock _) ((h.atClock _).of_stock (State.dropFrame_stock _))
  | interByteTimeout =>
    cases he
    split
    · exact h
    · exact (h.atClock _).of_stock (State.dropFrame_stock _)
  | replySent => cases he; exact h.of_stock rfl
  | powerOnReset => cases he; exact powerOn_agree G _ _ _ _
  | framePeriodExpiry order => cases he; exact h.periodExpiry order
  | windowExpiry order => cases he; exact h.windowEnd order
  | referencePulse elapsed order => cases he; exact (h.atClock _).pulseAt order
  | armedStart lane => cases he; exact .ite (h.steer (.startArmed s lane)) h
  | holdDwellExpiry lane => cases he; exact .ite (h.steer (.endHold s lane)) h
  | symbolStale slot => cases he; exact h.checkSymbol slot
  | compositionComplete =>
    cases he
    split
    · exact h.of_stock rfl
    · exact h
  | refreshTake => cases he; exact h.takeRefresh
  | refreshComplete =>
    replace he : execRefreshComplete s = .next t := he
    unfold execRefreshComplete at he
    split at he <;> cases he
    · exact h
    · rename_i f hf
      have hdone := h.concludeRefresh hf
      refine Agree.takeRefresh ?_
      exact hdone.setRefresh (fun g => (hdone.refs g).once) (fun g => (hdone.refs g).queue) fun g _ hx => by cases hx
  | gpiLevelChange elapsed input => cases he; exact (h.atClock _).steer (.levelChange (s.elapse elapsed) input)
  | gpiDebounceExpiry input late =>
    cases he
    split
    · exact h
    · exact (h.atClock _).steer (.countedChange _ late input)

end

/-- Settles O37: a step idles or runs its front command, and every command keeps what agrees. -/
theorem runListsAndPoolAgree : Obligations.RunListsAndPoolAgree := by
  intro s t hl hstep
  have h : Agree s.ReferencesAgree s := ⟨hl.lists, State.ReferencesAgree.refs⟩
  have ht : Agree s.ReferencesAgree t := by
    unfold step at hstep
    split at hstep
    · cases hstep; exact h
    · rename_i rest _
      have hrest : Agree s.ReferencesAgree { s with pending := rest } := h.of_stock rfl
      exact exec_keeps_agree hrest hstep
  exact ⟨ht.lists.listsAgree, fun hr => (ht.refs hr).referencesAgree⟩

end Sys2Proof.Machine

namespace Sys2Proof.Machine

/-! ### The end of a hold (R53, R54) -/

/-- Settles O27: both the request and the last count end the hold by `State.endHold`. -/
theorem holdsEndInRun : Obligations.HoldsEndInRun := by
  intro tag b s i
  refine ⟨fun h hlen hi => ?_, fun hs hd => ?_, fun hno => ?_⟩
  · have hl : lengthFits 0x30 b.length = true := by rw [hlen]; rfl
    have hrule : holdReleaseRule b s = if (s.lane i).state = .held then accept (s.endHold i) else refuse s .noEffect :=
      withLane_eq hi s _
    exact ⟨fun hs => answers_ok h hl (hrule.trans (if_pos hs)),
      fun hs => answers_refused .noEffect h hl (hrule.trans (if_neg hs))⟩
  · exact congrArg Host.Outcome.next (if_pos ⟨hs, hd⟩)
  · have hcount : ¬ ((s.lane i).state = .held ∧ (s.lane i).dwell ≤ 1) := by
      rintro ⟨hs, hd⟩
      rcases hno with hno | hno
      · exact hno hs
      · omega
    exact congrArg Host.Outcome.next (if_neg hcount)

/-! ### Starts of ARMED lanes (R69, R73, R74) -/

/-- The run list is empty and the on-empty policy STOP: a start completes at once (R19). -/
def Lane.drains (l : Lane) : Prop := l.visible = [] ∧ l.queued = [] ∧ l.setup.onEmpty = .stop

section
variable {s t : State} {j k : LaneId} {l : Lane} {a : Arm}

theorem Lane.begun_of_drains (h : l.drains) (r : ReturnState) :
    l.begun r = { l with state := if r = .idle then .idle else .stopped, clearing := false, arm := none } := if_pos h

theorem Lane.begun_of_not_drains (h : ¬ l.drains) (r : ReturnState) :
    l.begun r = { l with
      state := .run, velocity := 0, clearing := false, arm := none
      nextEntry := if r = .idle then l.travel else l.nextEntry } := if_neg h

theorem Lane.startFactor_of_drains (h : l.drains) (k : LaneId) : l.startFactor k = .drained k := if_pos h

theorem Lane.startFactor_of_not_drains (h : ¬ l.drains) (k : LaneId) : l.startFactor k = .started k := if_neg h

/-- A state that holds of an ARMED lane what its start leaves: the lane begun, and the factor of the start raised. -/
theorem AgreesOn.begun (h : AgreesOn k t (s.startArmed k)) (hs : (s.lane k).state = .armed) (ha : (s.lane k).arm = some a) :
    t.lane k = (s.lane k).begun a.returns ∧
      t.events.groups[laneGroup k] = (s.raise ((s.lane k).startFactor k)).events.groups[laneGroup k] := by
  obtain ⟨hl, hg⟩ := h
  rw [State.startArmed_eq hs ha] at hl hg
  exact ⟨hl.trans (by simp), hg⟩

/-- A start that completes at once (R19). -/
theorem AgreesOn.drained (h : AgreesOn k t (s.startArmed k)) (hs : (s.lane k).state = .armed)
    (ha : (s.lane k).arm = some a) (hd : (s.lane k).drains) :
    t.lane k = { s.lane k with state := if a.returns = .idle then .idle else .stopped, clearing := false, arm := none } ∧
      t.events.groups[laneGroup k] = (s.raise (.drained k)).events.groups[laneGroup k] := by
  rw [← Lane.begun_of_drains hd, ← Lane.startFactor_of_drains hd]
  exact h.begun hs ha

/-- A start that enters RUN (R18, R74). -/
theorem AgreesOn.started (h : AgreesOn k t (s.startArmed k)) (hs : (s.lane k).state = .armed)
    (ha : (s.lane k).arm = some a) (hd : ¬ (s.lane k).drains) :
    t.lane k = { s.lane k with
        state := .run, velocity := 0, clearing := false, arm := none
        nextEntry := if a.returns = .idle then (s.lane k).travel else (s.lane k).nextEntry } ∧
      t.events.groups[laneGroup k] = (s.raise (.started k)).events.groups[laneGroup k] := by
  rw [← Lane.begun_of_not_drains hd, ← Lane.startFactor_of_not_drains hd]
  exact h.begun hs ha

/-- The lanes a coming to rest reaches (R73). -/
theorem State.restMeets_iff : s.restMeets j k = true ↔ (s.lane k).state = .armed ∧
    ∃ mask returns m, (s.lane k).arm = some { condition := .stopOf mask, returns := returns, met := m } ∧
      mask.getLsbD j.val = true ∧
      ∀ n : LaneId, mask.getLsbD n.val = true → (s.lane n).state ≠ .run ∧ (s.lane n).state ≠ .brake := by
  have hall (mask : LaneSet) : (allLanes.all fun m => !(mask.getLsbD m.val) || !(s.lane m).isMoving) = true ↔
      ∀ n : LaneId, mask.getLsbD n.val = true → (s.lane n).state ≠ .run ∧ (s.lane n).state ≠ .brake := by
    simp [List.all_eq_true, mem_allLanes, Lane.isMoving, imp_iff_not_or]
  unfold State.restMeets
  split
  · rename_i a hs ha
    obtain ⟨condition, returns, m⟩ := a
    cases condition with
    | stopOf mask =>
      simp only [hs, ha, Bool.and_eq_true, hall, true_and]
      constructor
      · exact fun h => ⟨mask, returns, m, rfl, h⟩
      · rintro ⟨mask, returns, m, ⟨⟩, h⟩
        exact h
    | gpi n => simp [ha]
    | sync => simp [ha]
  · rename_i hno
    refine iff_of_false (by simp) ?_
    rintro ⟨hs, mask, returns, m, ha, -⟩
    exact hno _ hs ha

/-- A coming to rest: each lane it reaches is as the meeting of its condition leaves it, and nothing else changes. -/
theorem comesToRest_spec (s : State) (late : LaneSet) (j : LaneId) :
    s.comesToRest late j = { s with lanes := (s.comesToRest late j).lanes, events := (s.comesToRest late j).events } ∧
    (s.comesToRest late j).events.mask = s.events.mask ∧
    (∀ g : GroupId, (∀ k, g ≠ laneGroup k) → (s.comesToRest late j).events.groups[g] = s.events.groups[g]) ∧
    ∀ k : LaneId, AgreesOn k (s.comesToRest late j) (if s.restMeets j k then s.meetCondition late k else s) := by
  have hnodup : (allLanes.filter (s.restMeets j)).Nodup := List.Nodup.filter _ (by decide)
  obtain ⟨h1, h2, h3⟩ := foldl_lanes (LaneAlone.meetCondition late) (meetCondition_local late) hnodup s
  refine ⟨h1, (LaneWork.comesToRest s late j).mask, h2, fun k => ?_⟩
  obtain ⟨hin, hout⟩ := h3 k
  split
  · rename_i hk
    exact hin (List.mem_filter.mpr ⟨mem_allLanes k, hk⟩)
  · rename_i hk
    exact hout fun hmem => hk (List.mem_filter.mp hmem).2

end

/-- Settles O24: `comesToRest_spec`, with `State.restMeets_iff` for the lanes that are reached; a lane reached late keeps its
condition, marked, and any other starts. -/
theorem comingToRestStartsTheLanesThatWaitForIt : Obligations.ComingToRestStartsTheLanesThatWaitForIt := by
  intro s late j
  obtain ⟨hrest, hmask, hgroups, hlanes⟩ := comesToRest_spec s late j
  refine ⟨hrest, hmask, hgroups, fun k => ⟨fun mask returns m hs ha hj hall => ?_, fun hno => ?_⟩⟩
  · have h := hlanes k
    rw [if_pos (State.restMeets_iff.mpr ⟨hs, mask, returns, m, ha, hj, hall⟩)] at h
    have hstart (hl : late.getLsbD k.val = false) : s.meetCondition late k = s.startArmed k := if_neg (ne_true_of_eq_false hl)
    refine ⟨fun hl => ?_, fun hl hd => ?_, fun hl hd => ?_⟩
    · have hmark : s.meetCondition late k =
          s.updLane k fun l => { l with arm := l.arm.map fun a => { a with met := true } } := if_pos hl
      rw [hmark] at h
      obtain ⟨ht, hg⟩ := h
      exact ⟨ht.trans (by simp [ha]), hg⟩
    · exact (hstart hl ▸ h).drained hs ha hd
    · exact (hstart hl ▸ h).started hs ha hd
  · have hout : ¬ s.restMeets j k = true := by
      rw [State.restMeets_iff]
      rintro ⟨hs, mask, returns, m, ha, hj, hall⟩
      rcases hno with hno | hno
      · exact hno hs
      · rcases hno mask returns m ha with hj' | ⟨n, hn, hmoves⟩
        · exact ne_true_of_eq_false hj' hj
        · obtain ⟨hrun, hbrake⟩ := hall n hn
          exact hmoves.elim hrun hbrake
    have h := hlanes k
    rw [if_neg hout] at h
    exact h

/-! ### LANE_START with a condition, and ARMED_START (R69, R74) -/

section
variable {b : List Byte} {s : State} {i : LaneId} {l : Lane}

theorem laneStartRule_armed (hi : field b 0 1 = i.val) (h1 : 1 ≤ field b 1 1) (h3 : field b 1 1 ≤ 3) :
    laneStartRule b s = armRule s i (field b 1 1) (field b 2 1) (field b 3 1) := by
  rw [laneStartRule, withLane_eq hi]
  exact (if_neg (by omega)).trans (if_neg (by omega))

theorem armsFrom_eq_none {st : LaneState} (hi : st ≠ .idle) (hs : st ≠ .stopped) : armsFrom st = none := by
  cases st with
  | idle => exact absurd rfl hi
  | stopped => exact absurd rfl hs
  | off | armed | run | brake | held | frozen => rfl

/-- The fields of an armed form that R69 refuses. -/
def armFieldsBad (i : LaneId) (code gpi mask : Nat) : Prop :=
  code = 1 ∧ 3 < gpi ∨ code = 3 ∧ (mask = 0 ∨ 63 < mask ∨ mask.testBit i.val = true)

theorem getLsbD_laneSet_ofNat (mask : Nat) (i : LaneId) : (BitVec.ofNat 6 mask).getLsbD i.val = mask.testBit i.val := by
  rw [BitVec.getLsbD_ofNat, decide_eq_true i.isLt, Bool.true_and]

theorem armConditionOf_of_bad {code gpi mask : Nat} (h : armFieldsBad i code gpi mask) :
    armConditionOf i code gpi mask = none := by
  rcases h with ⟨rfl, hgpi⟩ | ⟨rfl, hmask⟩
  · rw [armConditionOf, small?_none (by omega)]; rfl
  · refine if_pos ?_
    rcases hmask with h | h | h
    · exact .inl h
    · exact .inr (.inl h)
    · exact .inr (.inr ((getLsbD_laneSet_ofNat mask i).trans h))

theorem armConditionOf_of_good {code gpi mask : Nat} {c : ArmCondition} (h : ¬ armFieldsBad i code gpi mask)
    (hc : code = 1 ∧ (∃ n : GpiId, gpi = n.val ∧ c = .gpi n) ∨ code = 2 ∧ c = .sync ∨
      code = 3 ∧ c = .stopOf (BitVec.ofNat 6 mask)) : armConditionOf i code gpi mask = some c := by
  rcases hc with ⟨rfl, n, hn, rfl⟩ | ⟨rfl, rfl⟩ | ⟨rfl, rfl⟩
  · rw [armConditionOf, small?_eq hn]; rfl
  · rfl
  · refine if_neg fun hmask => h (.inr ⟨rfl, ?_⟩)
    rcases hmask with h | h | h
    · exact .inl h
    · exact .inr (.inl h)
    · exact .inr (.inr ((getLsbD_laneSet_ofNat mask i).symm.trans h))

/-- A lane whose start ARMED_START makes. -/
theorem Lane.startDue_iff : l.startDue = true ↔ l.state = .armed ∧ l.arm.any (fun a => a.met) = true := by
  unfold Lane.startDue
  split
  · rename_i a hs ha
    simp [hs, ha]
  · rename_i hno
    refine iff_of_false (by simp) ?_
    rintro ⟨hs, ha⟩
    obtain ⟨a, ha, -⟩ := any_eq_true_iff.mp ha
    exact hno a hs ha

theorem armedStart_of_due {a : Arm} (hs : (s.lane i).state = .armed) (ha : (s.lane i).arm = some a) (hm : a.met = true) :
    exec (.armedStart i) s =
      .next ((s.setLane i ((s.lane i).begun a.returns)).raise ((s.lane i).startFactor i)) := by
  have hdue : (s.lane i).startDue = true := Lane.startDue_iff.mpr ⟨hs, by simp [ha, hm]⟩
  rw [← State.startArmed_eq hs ha]
  exact congrArg Host.Outcome.next (if_pos hdue)

end

/-- Settles O23: the armed forms by `armConditionOf`, ARMED_START by the one start of `Lane.begun`. -/
theorem lanesAreArmedAndStart : Obligations.LanesAreArmedAndStart := by
  intro s i
  refine ⟨fun tag b h hlen hi h1 h3 => ?_, fun c returns hs ha => ⟨fun hd => ?_, fun hd => ?_⟩, fun hno => ?_⟩
  · have hl : lengthFits 0x12 b.length = true := by rw [hlen]; rfl
    have hrule := laneStartRule_armed (s := s) hi h1 h3
    refine ⟨fun hidle hstopped => answers_refused .busy h hl ?_, fun returns hr => ?_⟩
    · rw [hrule, armRule, armsFrom_eq_none hidle hstopped]
    have hfrom : armsFrom (s.lane i).state = some returns := by
      rcases hr with ⟨hs, rfl⟩ | ⟨hs, rfl⟩ <;> rw [hs] <;> rfl
    refine ⟨fun hbad => answers_refused .badParam h hl ?_, fun c hgood hc => answers_ok h hl ?_⟩
    · rw [hrule, armRule, hfrom, armConditionOf_of_bad hbad]
    · rw [hrule, armRule, hfrom, armConditionOf_of_good hgood hc]; rfl
  · rw [armedStart_of_due hs ha rfl, Lane.begun_of_drains hd, Lane.startFactor_of_drains hd]
  · rw [armedStart_of_due hs ha rfl, Lane.begun_of_not_drains hd, Lane.startFactor_of_not_drains hd]
  · have hdue : ¬ (s.lane i).startDue = true := by
      rw [Lane.startDue_iff]
      rintro ⟨hs, hm⟩
      rcases hno with hno | hno
      · exact hno hs
      · exact ne_true_of_eq_false hno hm
    exact congrArg Host.Outcome.next (if_neg hdue)

end Sys2Proof.Machine

namespace Sys2Proof.Machine

/-! ### The fields of a CUE_SET body (R55, R64) -/

theorem beValue_lt (bs : List Byte) : beValue bs < 256 ^ bs.length := by
  induction bs using List.reverseRecOn with
  | nil => simp [beValue]
  | append_singleton bs x ih =>
    have hstep : beValue (bs ++ [x]) = beValue bs * 256 + x.toNat := by simp [beValue]
    have := x.isLt
    rw [hstep, List.length_append, List.length_singleton, pow_succ]
    omega

theorem field_lt (b : List Byte) (off w : Nat) : field b off w < 256 ^ w :=
  (beValue_lt _).trans_le (Nat.pow_le_pow_right (by decide) (List.length_take_le w _))

section
variable {n : Nat}

theorem CueSource.code_inj {x y : CueSource} : x.code = y.code ↔ x = y := by
  cases x <;> cases y <;> simp [CueSource.code]

theorem CueMethod.code_inj {x y : CueMethod} : x.code = y.code ↔ x = y := by
  cases x <;> cases y <;> simp [CueMethod.code]

theorem CueAction.code_inj {x y : CueAction} : x.code = y.code ↔ x = y := by
  cases x <;> cases y <;> simp [CueAction.code]

theorem cueSource?_eq_some {x : CueSource} : cueSource? n = some x ↔ x.code = n := by
  constructor
  · intro h
    unfold cueSource? at h
    split at h <;> cases h <;> rfl
  · rintro rfl
    cases x <;> rfl

theorem cueMethod?_eq_some {x : CueMethod} : cueMethod? n = some x ↔ x.code = n := by
  constructor
  · intro h
    unfold cueMethod? at h
    split at h <;> cases h <;> rfl
  · rintro rfl
    cases x <;> rfl

theorem cueAction?_eq_some {x : CueAction} : cueAction? n = some x ↔ x.code = n := by
  constructor
  · intro h
    unfold cueAction? at h
    split at h <;> cases h <;> rfl
  · rintro rfl
    cases x <;> rfl

theorem bool?_eq_some {x : Bool} : bool? n = some x ↔ n ≤ 1 ∧ x = decide (n = 1) := by
  constructor
  · intro h
    have hn := bool?_some h
    exact ⟨hn, Option.some.inj (h.symm.trans (bool?_eq hn))⟩
  · rintro ⟨hn, rfl⟩
    exact bool?_eq hn

/-- The codes that name a source, a method and an action. -/
theorem exists_cueSource : (∃ x : CueSource, x.code = n) ↔ n ≤ 3 := by
  constructor
  · rintro ⟨x, rfl⟩
    cases x <;> decide
  · intro h
    interval_cases n
    exacts [⟨.travel, rfl⟩, ⟨.entries, rfl⟩, ⟨.runFrames, rfl⟩, ⟨.itemEntry, rfl⟩]

theorem exists_cueMethod : (∃ x : CueMethod, x.code = n) ↔ n ≤ 1 := by
  constructor
  · rintro ⟨x, rfl⟩
    cases x <;> decide
  · intro h
    interval_cases n
    exacts [⟨.reach, rfl⟩, ⟨.cross, rfl⟩]

theorem exists_cueAction : (∃ x : CueAction, x.code = n) ↔ n ≤ 4 := by
  constructor
  · rintro ⟨x, rfl⟩
    cases x <;> decide
  · intro h
    interval_cases n
    exacts [⟨.none, rfl⟩, ⟨.stopNow, rfl⟩, ⟨.stopRamp, rfl⟩, ⟨.stopAt, rfl⟩, ⟨.loadStaged, rfl⟩]

/-- A value above what its source takes; every value of a field fits TRAVEL. -/
theorem valueLimit_lt_iff (x : CueSource) (h : n < 2 ^ 48) : n > valueLimit x ↔
    (x.code = 1 ∨ x.code = 2) ∧ 2 ^ 32 - 1 < n ∨ x.code = 3 ∧ 0xFFFF < n := by
  cases x with
  | travel => simp only [valueLimit, CueSource.code]; omega
  | entries | runFrames | itemEntry => simp [valueLimit, CueSource.code]

end

section
variable {b : List Byte} {c : Cue}

/-- The fields of a CUE_SET body that check 3 of R64 refuses. -/
def CueFieldsBad (b : List Byte) : Prop :=
  3 < field b 2 1 ∨ 1 < field b 3 1 ∨ 4 < field b 10 1 ∨ 63 < field b 11 1 ∨ 1 < field b 12 1 ∨
    field b 12 1 = 1 ∧ field b 2 1 ≠ 3 ∨ (field b 2 1 = 1 ∨ field b 2 1 = 2) ∧ 2 ^ 32 - 1 < field b 4 6 ∨
    field b 2 1 = 3 ∧ 0xFFFF < field b 4 6 ∨ field b 10 1 = 3 ∧ (field b 2 1 ≠ 0 ∨ field b 3 1 ≠ 0)

/-- The record a CUE_SET body spells. -/
structure SpellsCue (b : List Byte) (c : Cue) : Prop where
  source : c.source.code = field b 2 1
  method : c.method.code = field b 3 1
  value : c.value = field b 4 6
  action : c.action.code = field b 10 1
  syncMask : c.syncMask = BitVec.ofNat 6 (field b 11 1)
  repeats : c.repeats = decide (field b 12 1 = 1)
  armed : c.armed = true

/-- Check 3 of R64, of the record that the body spells. -/
theorem cueFieldsBad_iff (h : SpellsCue b c) (h12 : field b 12 1 ≤ 1) : CueFieldsBad b ↔
    field b 11 1 ≥ 64 ∨ (c.repeats = true ∧ c.source ≠ .itemEntry) ∨ c.value > valueLimit c.source ∨
      (c.action = .stopAt ∧ (c.source ≠ .travel ∨ c.method ≠ .reach)) := by
  have h2 : ¬ 3 < field b 2 1 := Nat.not_lt.mpr (exists_cueSource.mp ⟨_, h.source⟩)
  have h3 : ¬ 1 < field b 3 1 := Nat.not_lt.mpr (exists_cueMethod.mp ⟨_, h.method⟩)
  have h10 : ¬ 4 < field b 10 1 := Nat.not_lt.mpr (exists_cueAction.mp ⟨_, h.action⟩)
  have hitem : c.source = .itemEntry ↔ field b 2 1 = 3 := by rw [← h.source]; exact CueSource.code_inj.symm
  have htravel : c.source = .travel ↔ field b 2 1 = 0 := by rw [← h.source]; exact CueSource.code_inj.symm
  have hreach : c.method = .reach ↔ field b 3 1 = 0 := by rw [← h.method]; exact CueMethod.code_inj.symm
  have hstop : c.action = .stopAt ↔ field b 10 1 = 3 := by rw [← h.action]; exact CueAction.code_inj.symm
  have hvalue := valueLimit_lt_iff c.source (h.value ▸ field_lt b 4 6)
  rw [h.source, h.value] at hvalue
  rw [h.value, hvalue, h.repeats, decide_eq_true_eq]
  simp only [CueFieldsBad, h2, h3, h10, Nat.not_lt.mpr h12, Ne, hitem, htravel, hreach, hstop, false_or, ge_iff_le,
    Nat.succ_le_iff, or_assoc]

/-- A CUE_SET body passes check 3 of R64 with the record it spells, and with no other. -/
theorem cueOf_eq_some_iff : cueOf b = some c ↔ ¬ CueFieldsBad b ∧ SpellsCue b c := by
  simp only [cueOf, Option.bind_eq_bind, Option.bind_eq_some_iff, Option.ite_none_left_eq_some, Option.some.injEq,
    cueSource?_eq_some, cueMethod?_eq_some, cueAction?_eq_some, bool?_eq_some]
  constructor
  · rintro ⟨source, hs, method, hm, action, ha, repeats, ⟨h12, hr⟩, hok, rfl⟩
    have h : SpellsCue b { source, method, value := field b 4 6, action, syncMask := BitVec.ofNat 6 (field b 11 1), repeats
                           armed := true } := ⟨hs, hm, rfl, ha, rfl, hr, rfl⟩
    exact ⟨fun hbad => hok ((cueFieldsBad_iff h h12).mp hbad), h⟩
  · rintro ⟨hok, h⟩
    have h12 : field b 12 1 ≤ 1 := Nat.not_lt.mp fun hlt => hok (by simp [CueFieldsBad, hlt])
    refine ⟨c.source, h.source, c.method, h.method, c.action, h.action, c.repeats, ⟨h12, h.repeats⟩, ?_, ?_⟩
    · rw [cueFieldsBad_iff h h12, h.value] at hok
      exact hok
    · rw [← h.value, ← h.syncMask, ← h.armed]

theorem cueOf_of_bad (h : CueFieldsBad b) : cueOf b = none :=
  Option.eq_none_iff_forall_ne_some.mpr fun _ hc => (cueOf_eq_some_iff.mp hc).1 h

theorem exists_cueOf (h : ¬ CueFieldsBad b) : ∃ c, cueOf b = some c ∧ SpellsCue b c := by
  obtain ⟨source, hs⟩ := exists_cueSource.mpr (Nat.not_lt.mp fun hlt => h (.inl hlt))
  obtain ⟨method, hm⟩ := exists_cueMethod.mpr (Nat.not_lt.mp fun hlt => h (.inr (.inl hlt)))
  obtain ⟨action, ha⟩ := exists_cueAction.mpr (Nat.not_lt.mp fun hlt => h (.inr (.inr (.inl hlt))))
  have hc : SpellsCue b { source, method, value := field b 4 6, action, syncMask := BitVec.ofNat 6 (field b 11 1)
                          repeats := decide (field b 12 1 = 1), armed := true } := ⟨hs, hm, rfl, ha, rfl, rfl, rfl⟩
  exact ⟨_, cueOf_eq_some_iff.mpr ⟨h, hc⟩, hc⟩

end

/-! ### The checks against the lane and its items (R64) -/

section
variable {s : State} {i : LaneId} {c : Cue} {it : Item} {slot : Nat}

theorem cueRefusal_of_no_item (hs : c.source = .itemEntry) (hr : s.resolve c.value = none) :
    cueRefusal s i c = some .noItem := by
  simp [cueRefusal, hs, hr]

theorem cueRefusal_of_other_lane (hs : c.source = .itemEntry) (hr : s.resolve c.value = some (slot, it))
    (hl : it.lane ≠ i) : cueRefusal s i c = some .badParam := by
  simp [cueRefusal, hs, hr, hl]

/-- A cue whose item, if it names one, is the lane's own is refused only when its value is passed. -/
theorem cueRefusal_of_own (h : c.source = .itemEntry → ∃ slot it, s.resolve c.value = some (slot, it) ∧ it.lane = i) :
    cueRefusal s i c =
      if c.action = .stopAt ∧ c.value ≤ (s.lane i).travel then some .passed
      else if c.method = .cross ∧ (sourceStands (s.lane i) c.source).any (fun v => decide (v ≥ c.value)) then some .passed
      else none := by
  by_cases hs : c.source = .itemEntry
  · obtain ⟨slot, it, hr, hl⟩ := h hs
    simp [cueRefusal, hs, hr, hl]
  · simp [cueRefusal, hs]

/-- A source stands at or past a value (R64, check 6). -/
theorem sourceStands_any_iff (l : Lane) (x : CueSource) (n : Nat) :
    (sourceStands l x).any (fun v => decide (v ≥ n)) = true ↔
      x.code = 0 ∧ n ≤ l.travel ∨ x.code = 1 ∧ n ≤ l.entries.toNat ∨ x.code = 2 ∧ n ≤ l.runFrames.toNat := by
  cases x <;> simp [sourceStands, CueSource.code]

theorem cueRefusal_of_own_iff
    (h : c.source = .itemEntry → ∃ slot it, s.resolve c.value = some (slot, it) ∧ it.lane = i) (p : Prop)
    (hp : p ↔ c.action.code = 3 ∧ c.value ≤ (s.lane i).travel ∨ c.method.code = 1 ∧
      (c.source.code = 0 ∧ c.value ≤ (s.lane i).travel ∨ c.source.code = 1 ∧ c.value ≤ (s.lane i).entries.toNat ∨
        c.source.code = 2 ∧ c.value ≤ (s.lane i).runFrames.toNat)) :
    (p → cueRefusal s i c = some .passed) ∧ (¬ p → cueRefusal s i c = none) := by
  have hstop : c.action = .stopAt ↔ c.action.code = 3 := CueAction.code_inj.symm
  have hcross : c.method = .cross ↔ c.method.code = 1 := CueMethod.code_inj.symm
  rw [cueRefusal_of_own h, hp]
  simp only [sourceStands_any_iff, hstop, hcross]
  refine ⟨fun hpass => ?_, fun hpass => ?_⟩
  · rcases hpass with hpass | hpass
    · exact if_pos hpass
    · rw [if_pos hpass, ite_self]
  · obtain ⟨hahead, hstands⟩ := not_or.mp hpass
    rw [if_neg hahead, if_neg hstands]

end

/-! ### CUE_SET and CUE_CLEAR (R64 to R66) -/

section
variable {b : List Byte} {s : State} {i : LaneId} {k : CueId}

theorem withCue_eq (hi : field b 0 1 = i.val) (hk : field b 1 1 = k.val) (s : State)
    (rule : LaneId → CueId → State × Reply) : withCue b s rule = rule i k := by
  simp only [withCue, small?_eq hi, small?_eq hk]

theorem withCue_badCue (hk : 3 < field b 1 1) (s : State) (rule : LaneId → CueId → State × Reply) :
    withCue b s rule = refuse s .badParam := by
  rw [withCue, small?_none (n := 4) (by omega)]
  split
  · rename_i hnone
    cases hnone
  · rfl

/-- A cue record taken: the old stop target of the cue leaves the list, and the new one, if any, enters (R65). -/
theorem Lane.takeCue_eq (l : Lane) (k : CueId) (c : Cue) :
    let kept := if l.cues[k].armed = true ∧ l.cues[k].action = .stopAt
      then l.targets.filter fun t => decide (t.kind ≠ .stop k) else l.targets
    l.takeCue k c = { l with
      cues := l.cues.set k c
      targets := if c.action = .stopAt then insertTarget { travel := c.value, kind := .stop k } kept else kept } := by
  unfold Lane.takeCue Lane.dropCueTarget
  split_ifs <;> rfl

/-- An ARMED cue cleared: its stop target, if any, leaves the list with it (R66). -/
theorem Lane.clearCue_eq {l : Lane} (h : l.cues[k].armed = true) :
    (l.dropCueTarget k).disarmCue k = { l with
      cues := l.cues.set k { l.cues[k] with armed := false }
      targets := if l.cues[k].action = .stopAt
        then l.targets.filter fun t => decide (t.kind ≠ .stop k) else l.targets } := by
  unfold Lane.dropCueTarget
  simp only [h, true_and]
  split_ifs <;> rfl

theorem cueSetRule_of_off (hi : field b 0 1 = i.val) (hk : field b 1 1 = k.val) (hs : (s.lane i).state = .off) :
    cueSetRule b s = refuse s .busy := by
  rw [cueSetRule, withCue_eq hi hk]
  exact if_pos hs

theorem cueSetRule_of_bad (hi : field b 0 1 = i.val) (hk : field b 1 1 = k.val) (hs : (s.lane i).state ≠ .off)
    (hbad : CueFieldsBad b) : cueSetRule b s = refuse s .badParam := by
  rw [cueSetRule, withCue_eq hi hk, if_neg hs, cueOf_of_bad hbad]

theorem cueSetRule_of_refused {c : Cue} {r : Result} (hi : field b 0 1 = i.val) (hk : field b 1 1 = k.val)
    (hs : (s.lane i).state ≠ .off) (hc : cueOf b = some c) (hr : cueRefusal s i c = some r) :
    cueSetRule b s = refuse s r := by
  rw [cueSetRule, withCue_eq hi hk, if_neg hs]
  simp only [hc, hr]

theorem cueSetRule_of_taken {c : Cue} (hi : field b 0 1 = i.val) (hk : field b 1 1 = k.val)
    (hs : (s.lane i).state ≠ .off) (hc : cueOf b = some c) (hr : cueRefusal s i c = none) :
    cueSetRule b s = accept (s.setLane i ((s.lane i).takeCue k c)) := by
  rw [cueSetRule, withCue_eq hi hk, if_neg hs]
  simp only [hc, hr]
  rfl

/-- The item a cue's value names is there, at the generation of its handle (R30, R64). -/
theorem State.resolve_of_present {n : Nat} (h : ¬ (s.item? (n % 2048) = none ∨ s.pool.generation (n % 2048) ≠ n / 2048)) :
    ∃ it, s.item? (n % 2048) = some it ∧ s.resolve n = some (n % 2048, it) := by
  rw [not_or, not_not] at h
  obtain ⟨hit, hgen⟩ := h
  obtain ⟨it, hit⟩ := Option.ne_none_iff_exists'.mp hit
  exact ⟨it, hit, State.resolve_some (Nat.mod_lt _ (by decide)) hit (by omega)⟩

end

/-- Settles O38: the checks of the body are `cueOf_eq_some_iff`, those against the lane and its items the lemmas of
`cueRefusal`; `Lane.takeCue_eq` and `Lane.clearCue_eq` say what the lane then holds. -/
theorem cuesAreSetAndCleared : Obligations.CuesAreSetAndCleared := by
  intro tag b s i hi
  refine ⟨fun h hlen hk => ?_, fun k h hlen hk => ?_, fun h hlen hk => ?_, fun k h hlen hk => ⟨fun ha => ?_, fun ha => ?_⟩⟩
  · exact answers_refused .badParam h (by rw [hlen]; rfl) (withCue_badCue hk s _)
  · have hl : lengthFits 0x31 b.length = true := by rw [hlen]; rfl
    intro value ends bad noItem otherLane passed
    have hitem {c : Cue} (hc : SpellsCue b c) : c.source = .itemEntry ↔ field b 2 1 = 3 := by
      rw [← hc.source]; exact CueSource.code_inj.symm
    have hown {c : Cue} (hc : SpellsCue b c) (hno : ¬ noItem) (hother : ¬ otherLane) (hs : c.source = .itemEntry) :
        ∃ slot it, s.resolve c.value = some (slot, it) ∧ it.lane = i := by
      have h2 := (hitem hc).mp hs
      obtain ⟨it, hit, hres⟩ := State.resolve_of_present fun hgone => hno ⟨h2, hgone⟩
      exact ⟨_, it, (congrArg s.resolve hc.value).trans hres, by_contra fun hlane => hother ⟨h2, it, hit, hlane⟩⟩
    have hpassed {c : Cue} (hc : SpellsCue b c) (hno : ¬ noItem) (hother : ¬ otherLane) :
        (passed → cueRefusal s i c = some .passed) ∧ (¬ passed → cueRefusal s i c = none) :=
      cueRefusal_of_own_iff (hown hc hno hother) passed (by rw [hc.action, hc.method, hc.source, hc.value])
    refine ⟨fun hs => ?_, fun hs hbad => ?_, fun hs hgood hno => ?_, fun hs hgood hno hother => ?_,
      fun hs hgood hno hother hpass => ?_, fun c hs hgood hno hother hpass h2 h3 hv h10 h11 h12 ha => ?_⟩
    · exact answers_refused .busy h hl (cueSetRule_of_off hi hk hs)
    · exact answers_refused .badParam h hl (cueSetRule_of_bad hi hk hs hbad)
    · obtain ⟨c, hof, hc⟩ := exists_cueOf hgood
      obtain ⟨h2, hgone⟩ := hno
      exact answers_refused .noItem h hl (cueSetRule_of_refused hi hk hs hof
        (cueRefusal_of_no_item ((hitem hc).mpr h2) ((congrArg s.resolve hc.value).trans (State.resolve_none hgone))))
    · obtain ⟨c, hof, hc⟩ := exists_cueOf hgood
      obtain ⟨h2, it, hit, hlane⟩ := hother
      obtain ⟨it', hit', hres⟩ := State.resolve_of_present fun hgone => hno ⟨h2, hgone⟩
      obtain rfl : it = it' := Option.some.inj (hit.symm.trans hit')
      exact answers_refused .badParam h hl (cueSetRule_of_refused hi hk hs hof
        (cueRefusal_of_other_lane ((hitem hc).mpr h2) ((congrArg s.resolve hc.value).trans hres) hlane))
    · obtain ⟨c, hof, hc⟩ := exists_cueOf hgood
      exact answers_refused .passed h hl (cueSetRule_of_refused hi hk hs hof ((hpassed hc hno hother).1 hpass))
    · have hc : SpellsCue b c := ⟨h2, h3, hv, h10, h11, h12, ha⟩
      refine answers_ok h hl ((cueSetRule_of_taken hi hk hs (cueOf_eq_some_iff.mpr ⟨hgood, hc⟩)
        ((hpassed hc hno hother).2 hpass)).trans ?_)
      rw [Lane.takeCue_eq, hv]
  · exact answers_refused .badParam h (by rw [hlen]; rfl) (withCue_badCue hk s _)
  · refine answers_refused .noEffect h (by rw [hlen]; rfl) ?_
    rw [cueClearRule, withCue_eq hi hk]
    exact if_neg (ne_true_of_eq_false ha)
  · refine answers_ok h (by rw [hlen]; rfl) ?_
    rw [cueClearRule, withCue_eq hi hk, if_pos ha, State.updLane_eq, Lane.clearCue_eq ha]

end Sys2Proof.Machine

namespace Sys2Proof.Machine

/-! ### When a cue matches (R56, R57) -/

section
variable {v : CueView} {c : Cue}

theorem CueView.hits_iff : v.hits c = true ↔ c.armed = true ∧ c.action ≠ .stopAt ∧ v.holds c = true := by
  simp [CueView.hits, and_assoc]

theorem CueView.holds_of_itemEntry (hs : c.source = .itemEntry) : v.holds c = true ↔ c.value ∈ v.entered := by
  simp [CueView.holds, hs]

/-- REACH compares the value after the advance (R57). -/
theorem CueView.holds_of_reach (hs : c.source ≠ .itemEntry) (hm : c.method = .reach) :
    v.holds c = true ↔ c.value ≤ (v.values c.source).2 := by
  cases h : c.source with
  | itemEntry => exact absurd h hs
  | travel | entries | runFrames => simp [CueView.holds, h, hm]

/-- CROSS compares the values before and after the advance (R57). -/
theorem CueView.holds_of_cross (hs : c.source ≠ .itemEntry) (hm : c.method = .cross) :
    v.holds c = true ↔ (v.values c.source).1 < c.value ∧ c.value ≤ (v.values c.source).2 := by
  cases h : c.source with
  | itemEntry => exact absurd h hs
  | travel | entries | runFrames => simp [CueView.holds, h, hm]

/-- A cue that matches, by its place. -/
theorem CueView.mem_matching {l : Lane} {k : CueId} : k ∈ v.matching l ↔ v.hits l.cues[k] = true := by
  have hall : k ∈ allCues := by revert k; decide
  simp [CueView.matching, hall]

end

/-! ### Pulses (R63) -/

section
variable {s t u : State} {i j : LaneId}

theorem AgreesOn.refl (j : LaneId) (s : State) : AgreesOn j s s := ⟨rfl, rfl⟩

theorem AgreesOn.symm (h : AgreesOn j s t) : AgreesOn j t s := ⟨h.1.symm, h.2.symm⟩

theorem AgreesOn.trans (a : AgreesOn j s t) (b : AgreesOn j t u) : AgreesOn j s u := ⟨a.1.trans b.1, a.2.trans b.2⟩

/-- Work on one lane is not seen by another. -/
theorem LaneAlone.agreesOn (h : LaneAlone i s t) (hj : j ≠ i) : AgreesOn j t s :=
  ⟨h.lanes j hj, h.groups _ (laneGroup_ne hj)⟩

theorem Lane.awaitsSync_iff {l : Lane} : l.awaitsSync = true ↔
    l.state = .armed ∧ ∃ a, l.arm = some a ∧ a.condition = .sync := by
  unfold Lane.awaitsSync
  split
  · rename_i a hs ha
    simp [hs, ha]
  · rename_i hno
    refine iff_of_false (by simp) ?_
    rintro ⟨hs, a, ha, -⟩
    exact hno a hs ha

/-- A pulse does nothing to a lane that is not ARMED on SYNC. -/
theorem pulse_of_deaf (h : ¬ (s.lane j).awaitsSync = true) : s.pulse j = s := if_neg h

/-- Pulses change neither a lane that is not ARMED on SYNC nor its group. -/
theorem pulses_of_deaf (h : ¬ (s.lane j).awaitsSync = true) (mask : LaneSet) : AgreesOn j (s.pulses mask) s := by
  obtain ⟨-, -, -, hp⟩ := pulses_spec s mask
  have := hp j
  rwa [pulse_of_deaf h, ite_self] at this

theorem AgreesOn.pulses (h : AgreesOn j s t) (mask : LaneSet) : AgreesOn j (s.pulses mask) (t.pulses mask) := by
  obtain ⟨-, -, -, hs⟩ := pulses_spec s mask
  obtain ⟨-, -, -, ht⟩ := pulses_spec t mask
  refine (hs j).trans (.trans ?_ (ht j).symm)
  split
  · exact pulse_local s t j h.1 h.2
  · exact h

theorem AgreesOn.foldl_pulses {α : Type} (m : α → LaneSet) (ks : List α) (h : AgreesOn j s t) :
    AgreesOn j (ks.foldl (fun s k => s.pulses (m k)) s) (ks.foldl (fun s k => s.pulses (m k)) t) := by
  induction ks generalizing s t with
  | nil => exact h
  | cons k ks ih => exact ih (h.pulses (m k))

/-- Pulses sent to one set of lanes after another are pulses sent to the union of the sets (R58, R63). -/
theorem foldl_pulses_agrees {α : Type} {m : α → LaneSet} {ks : List α} {mask : LaneSet}
    (hm : ∀ j : LaneId, mask.getLsbD j.val = true ↔ ∃ k ∈ ks, (m k).getLsbD j.val = true) (s : State) (j : LaneId) :
    AgreesOn j (ks.foldl (fun s k => s.pulses (m k)) s) (s.pulses mask) := by
  obtain ⟨-, -, -, hfold⟩ := foldl_pulses_spec m ks s
  obtain ⟨-, -, -, hone⟩ := pulses_spec s mask
  obtain ⟨hin, hout⟩ := hfold j
  have hone := (hone j).symm
  by_cases hj : mask.getLsbD j.val = true
  · rw [if_pos hj] at hone
    exact (hin ((hm j).mp hj)).trans hone
  · rw [if_neg hj] at hone
    exact (hout fun hk => hj ((hm j).mpr hk)).trans hone

end

/-- What O39 says of a sync pulse (R63, R74). -/
theorem pulses_start_what_awaits_sync (s : State) (mask : LaneSet) :
    let t := s.pulses mask
    t = { s with lanes := t.lanes, events := t.events } ∧ t.events.mask = s.events.mask ∧
    (∀ g : GroupId, (∀ j, g ≠ laneGroup j) → t.events.groups[g] = s.events.groups[g]) ∧
    ∀ j : LaneId,
      let l := s.lane j
      let drained := l.visible = [] ∧ l.queued = [] ∧ l.setup.onEmpty = .stop
      (∀ (returns : ReturnState) (m : Bool), mask.getLsbD j.val = true → l.state = .armed →
        l.arm = some { condition := .sync, returns := returns, met := m } →
        (drained → t.lane j = { l with
            state := if returns = .idle then .idle else .stopped, clearing := false, arm := none } ∧
          t.events.groups[laneGroup j] = (s.raise (.drained j)).events.groups[laneGroup j]) ∧
        (¬ drained → t.lane j = { l with
            state := .run, velocity := 0, clearing := false, arm := none
            nextEntry := if returns = .idle then l.travel else l.nextEntry } ∧
          t.events.groups[laneGroup j] = (s.raise (.started j)).events.groups[laneGroup j])) ∧
      (mask.getLsbD j.val = false ∨ l.state ≠ .armed ∨ (∀ a, l.arm = some a → a.condition ≠ .sync) →
        t.lane j = l ∧ t.events.groups[laneGroup j] = s.events.groups[laneGroup j]) := by
  obtain ⟨hrest, hmask, hgroups, hlanes⟩ := pulses_spec s mask
  refine ⟨hrest, hmask, hgroups, fun j => ⟨fun returns m hj hs ha => ?_, fun hno => ?_⟩⟩
  · have hpulse : s.pulse j = s.startArmed j := if_pos (Lane.awaitsSync_iff.mpr ⟨hs, _, ha, rfl⟩)
    have h := hlanes j
    rw [if_pos hj, hpulse] at h
    exact ⟨h.drained hs ha, h.started hs ha⟩
  · have h := hlanes j
    rcases hno with hj | hdeaf
    · rw [if_neg (ne_true_of_eq_false hj)] at h
      exact h
    · refine pulses_of_deaf ?_ mask
      rw [Lane.awaitsSync_iff]
      rintro ⟨hs, a, ha, hsync⟩
      exact hdeaf.elim (· hs) (· a ha hsync)

/-! ### The matches (R58) -/

section
variable {s t : State} {i j : LaneId}

/-- The lane after a match of one of its cues: the cue is disarmed unless it repeats (R58). -/
def Lane.matched (l : Lane) (k : CueId) : Lane := if l.cues[k].repeats then l else l.disarmCue k

theorem State.matchCue_eq (s : State) (i : LaneId) (k : CueId) :
    s.matchCue i k =
      ((s.setLane i ((s.lane i).matched k)).raise (.cue i k)).pulses (s.lane i).cues[k].syncMask := by
  have hset : (if (s.lane i).cues[k].repeats then s else s.updLane i fun l => l.disarmCue k) =
      s.setLane i ((s.lane i).matched k) := by
    unfold Lane.matched
    split
    · exact (s.setLane_self i).symm
    · rfl
  exact congrArg (fun u : State => (u.raise (.cue i k)).pulses (s.lane i).cues[k].syncMask) hset

theorem Lane.disarmCue_cue (l : Lane) (a k : CueId) :
    (l.disarmCue a).cues[k] = if k = a then { l.cues[k] with armed := false } else l.cues[k] := by
  simpa using cues_disarmed [a] k l

theorem Lane.matched_syncMask (l : Lane) (a k : CueId) : (l.matched a).cues[k].syncMask = l.cues[k].syncMask := by
  unfold Lane.matched
  split
  · rfl
  · rw [Lane.disarmCue_cue]; split <;> rfl

theorem Lane.matched_state (l : Lane) (a : CueId) : (l.matched a).state = l.state := by
  unfold Lane.matched; split <;> rfl

/-- Matches of several cues disarm those that do not repeat. -/
theorem foldl_matched_eq (ks : List CueId) (l : Lane) :
    ks.foldl Lane.matched l = (ks.filter fun k => !l.cues[k].repeats).foldl Lane.disarmCue l := by
  induction ks generalizing l with
  | nil => rfl
  | cons a ks ih =>
    rw [List.foldl_cons, ih]
    by_cases h : l.cues[a].repeats = true
    · have hm : l.matched a = l := if_pos h
      rw [hm, List.filter_cons_of_neg (by rw [h]; decide)]
    · have hm : l.matched a = l.disarmCue a := if_neg h
      have hrepeats (k : CueId) : (l.disarmCue a).cues[k].repeats = l.cues[k].repeats := by
        rw [Lane.disarmCue_cue]; split <;> rfl
      rw [hm, List.filter_cons_of_pos (by rw [Bool.eq_false_iff.mpr h]; rfl), List.foldl_cons]
      simp only [hrepeats]

theorem foldl_matched_keeps (ks : List CueId) (l : Lane) : ∃ cs, ks.foldl Lane.matched l = { l with cues := cs } := by
  rw [foldl_matched_eq]
  exact disarmCues_keeps _ l

theorem foldl_matched_cue (ks : List CueId) (l : Lane) (k : CueId) :
    (ks.foldl Lane.matched l).cues[k] =
      if k ∈ ks ∧ l.cues[k].repeats = false then { l.cues[k] with armed := false } else l.cues[k] := by
  rw [foldl_matched_eq, cues_disarmed]
  simp [List.mem_filter]

/-- What matches of cues of lane i, which is not ARMED, make of a state: the lane with those cues disarmed that do not
repeat, their factors raised, and their pulses sent to the other lanes. -/
structure CuesMatched (i : LaneId) (ks : List CueId) (s t : State) : Prop where
  rest : t = { s with lanes := t.lanes, events := t.events }
  mask : t.events.mask = s.events.mask
  groups : ∀ g : GroupId, (∀ j, g ≠ laneGroup j) → t.events.groups[g] = s.events.groups[g]
  lane : t.lane i = ks.foldl Lane.matched (s.lane i)
  group : t.events.groups[laneGroup i] =
    (ks.foldl (fun s k => s.raise (.cue i k)) s).events.groups[laneGroup i]
  others : ∀ j, j ≠ i → AgreesOn j t (ks.foldl (fun u k => u.pulses (s.lane i).cues[k].syncMask) s)

theorem raises_group_congr {α : Type} {g : GroupId} (f : α → Factor) (as : List α)
    (h : s.events.groups[g] = t.events.groups[g]) :
    (as.foldl (fun s a => s.raise (f a)) s).events.groups[g] = (as.foldl (fun s a => s.raise (f a)) t).events.groups[g] := by
  induction as generalizing s t with
  | nil => exact h
  | cons a as ih => exact ih (State.raise_group (f a) h)

theorem cuesMatched_foldl (ks : List CueId) (s : State) (hs : (s.lane i).state ≠ .armed) :
    CuesMatched i ks s (ks.foldl (fun s k => s.matchCue i k) s) := by
  induction ks generalizing s with
  | nil => exact ⟨rfl, rfl, fun _ _ => rfl, rfl, rfl, fun _ _ => .refl _ _⟩
  | cons k ks ih =>
    let u := (s.setLane i ((s.lane i).matched k)).raise (.cue i k)
    have hmatch : s.matchCue i k = u.pulses (s.lane i).cues[k].syncMask := s.matchCue_eq i k
    have halone : LaneAlone i s u := (LaneAlone.setLane i s _).trans (.raise _ rfl)
    have hlane : u.lane i = (s.lane i).matched k := State.lane_setLane_same s i _
    have hdeaf : ¬ (u.lane i).awaitsSync = true := by
      rw [Lane.awaitsSync_iff, hlane, Lane.matched_state]
      exact fun h => hs h.1
    obtain ⟨prest, pmask, pgroups, -⟩ := pulses_spec u (s.lane i).cues[k].syncMask
    obtain ⟨plane, pgroup⟩ := pulses_of_deaf hdeaf (s.lane i).cues[k].syncMask
    rw [← hmatch] at prest pmask pgroups plane pgroup
    have hi : (s.matchCue i k).lane i = (s.lane i).matched k := plane.trans hlane
    have h := ih (s.matchCue i k) (by rw [hi, Lane.matched_state]; exact hs)
    refine ⟨lanesAndEvents_trans (lanesAndEvents_trans halone.rest prest) h.rest,
      h.mask.trans (pmask.trans halone.mask),
      fun g hg => (h.groups g hg).trans ((pgroups g hg).trans (halone.groups g (hg i))), ?_, ?_, fun j hj => ?_⟩
    · rw [List.foldl_cons, h.lane, hi, List.foldl_cons]
    · exact h.group.trans (raises_group_congr (fun k => .cue i k) ks pgroup)
    · have hother := h.others j hj
      simp only [hi, Lane.matched_syncMask] at hother
      refine hother.trans (.foldl_pulses _ ks ?_)
      rw [hmatch]
      exact (halone.agreesOn hj).pulses _

/-- The factors of the matching cues: each is recorded when it is enabled (R58, R156). -/
theorem CuesMatched.pending {ks : List CueId} (h : CuesMatched i ks s t) {n : Nat} (hn : n < 16) :
    t.events.groups[laneGroup i].pending.getLsbD n = true ↔
      s.events.groups[laneGroup i].pending.getLsbD n = true ∨
        ∃ k ∈ ks, n = 5 + k.val ∧ s.events.groups[laneGroup i].enable.getLsbD n = true := by
  rw [h.group, raises_pending (fun _ => rfl) ks s hn]
  have hplace : ((∃ k ∈ ks, n = (Factor.cue i k).place) ∧ (13 ≤ n ∨ s.events.groups[laneGroup i].enable.getLsbD n = true)) ↔
      ∃ k ∈ ks, n = 5 + k.val ∧ s.events.groups[laneGroup i].enable.getLsbD n = true := by
    constructor
    · rintro ⟨⟨k, hk, hp⟩, he⟩
      have hp : n = 5 + k.val := hp
      exact ⟨k, hk, hp, he.resolve_left (by omega)⟩
    · rintro ⟨k, hk, hp, he⟩
      exact ⟨⟨k, hk, hp⟩, .inr he⟩
  rw [hplace]

/-- A match keeps the enables and the level of its lane's group. -/
theorem CuesMatched.group_keeps {ks : List CueId} (h : CuesMatched i ks s t) :
    t.events.groups[laneGroup i] =
      { s.events.groups[laneGroup i] with pending := t.events.groups[laneGroup i].pending } := by
  have hraised : LaneFactors i s (ks.foldl (fun s k => s.raise (.cue i k)) s) :=
    LaneFactors.raises ⟨.refl i s, rfl, rfl⟩ (fun _ => rfl) ks
  rw [h.group]
  exact hraised.group

end

/-! ### The cue part of an advance (R58 to R61) -/

section
variable {s : State} {i : LaneId} {v : CueView}

/-- The actions of the cues that match. -/
def CueView.actions (v : CueView) (l : Lane) : List CueAction := (v.matching l).map fun k => l.cues[k].action

theorem CueView.mem_actions {l : Lane} {a : CueAction} :
    a ∈ v.actions l ↔ ∃ k : CueId, v.hits l.cues[k] = true ∧ l.cues[k].action = a := by
  simp [CueView.actions, CueView.mem_matching]

/-- The state once the cues have matched and the staged record, if one of them asks for it, is loaded: before any stop
(R58, R60). -/
def State.afterMatches (s : State) (i : LaneId) (v : CueView) : State :=
  let t := (v.matching (s.lane i)).foldl (fun s k => s.matchCue i k) s
  if .loadStaged ∈ v.actions (s.lane i) then t.updLane i Lane.loadStaged else t

/-- The most abrupt of the matching stops acts last (R61). -/
theorem State.cuePart_eq (s : State) (i : LaneId) (v : CueView) :
    s.cuePart i v =
      if .stopNow ∈ v.actions (s.lane i) then ((s.afterMatches i v).applyStop 0 i .now).getD (s.afterMatches i v)
      else if .stopRamp ∈ v.actions (s.lane i) then ((s.afterMatches i v).applyStop 0 i .ramp).getD (s.afterMatches i v)
      else s.afterMatches i v := rfl

/-- The lane itself, once its cues have matched and the staged record is loaded. -/
def Lane.afterMatches (l : Lane) (v : CueView) : Lane :=
  let m := (v.matching l).foldl Lane.matched l
  if .loadStaged ∈ v.actions l then m.loadStaged else m

theorem Lane.loadStaged_of_none {l : Lane} (h : l.staged = none) : l.loadStaged = l := by
  simp [Lane.loadStaged, h]

theorem Lane.loadStaged_of_some {l : Lane} {p : SpeedPair} (h : l.staged = some p) :
    l.loadStaged = { l with cruise := p.cruise, accel := p.accel, staged := none } := by
  simp [Lane.loadStaged, h]

/-- LOAD_STAGED with a staged record there (R60). -/
theorem Lane.afterMatches_of_load {l : Lane} {p : SpeedPair} (h : .loadStaged ∈ v.actions l) (hp : l.staged = some p) :
    l.afterMatches v = { l with
      cues := ((v.matching l).foldl Lane.matched l).cues, cruise := p.cruise, accel := p.accel, staged := none } := by
  obtain ⟨cs, hcs⟩ := foldl_matched_keeps (v.matching l) l
  unfold Lane.afterMatches
  simp only [if_pos h, hcs]
  exact Lane.loadStaged_of_some hp

/-- No LOAD_STAGED, or none to load (R60). -/
theorem Lane.afterMatches_of_no_load {l : Lane} (h : .loadStaged ∉ v.actions l ∨ l.staged = none) :
    l.afterMatches v = { l with cues := ((v.matching l).foldl Lane.matched l).cues } := by
  obtain ⟨cs, hcs⟩ := foldl_matched_keeps (v.matching l) l
  unfold Lane.afterMatches
  simp only [hcs]
  split
  · rename_i hl
    exact Lane.loadStaged_of_none (h.resolve_left (not_not.mpr hl))
  · rfl

/-- Matches and the load change the cues and the speeds of the lane alone. -/
theorem Lane.afterMatches_keeps (l : Lane) (v : CueView) :
    ∃ c a st, l.afterMatches v = { l with
      cues := ((v.matching l).foldl Lane.matched l).cues, cruise := c, accel := a, staged := st } := by
  by_cases h : .loadStaged ∈ v.actions l ∧ ∃ p, l.staged = some p
  · obtain ⟨hl, p, hp⟩ := h
    exact ⟨_, _, _, Lane.afterMatches_of_load hl hp⟩
  · refine ⟨_, _, _, Lane.afterMatches_of_no_load ?_⟩
    rw [not_and_or] at h
    exact h.imp_right fun hp => Option.eq_none_iff_forall_ne_some.mpr fun p e => hp ⟨p, e⟩

theorem Lane.afterMatches_cue (l : Lane) (v : CueView) (k : CueId) :
    (l.afterMatches v).cues[k] =
      if v.hits l.cues[k] = true ∧ l.cues[k].repeats = false then { l.cues[k] with armed := false } else l.cues[k] := by
  obtain ⟨c, a, st, h⟩ := l.afterMatches_keeps v
  rw [h]
  simp only [foldl_matched_cue, CueView.mem_matching]

/-- What the matches and the load make of the machine: the lane as said of it alone, and the rest as the matches leave it. -/
theorem State.afterMatches_spec (hs : (s.lane i).state ≠ .armed) (v : CueView) :
    ∃ t, CuesMatched i (v.matching (s.lane i)) s t ∧
      s.afterMatches i v = t.setLane i ((s.lane i).afterMatches v) := by
  refine ⟨_, cuesMatched_foldl (v.matching (s.lane i)) s hs, ?_⟩
  have h := cuesMatched_foldl (v.matching (s.lane i)) s hs
  unfold State.afterMatches Lane.afterMatches
  simp only [← h.lane]
  split
  · rfl
  · exact (State.setLane_self _ i).symm

theorem State.afterMatches_lane (hs : (s.lane i).state ≠ .armed) (v : CueView) :
    (s.afterMatches i v).lane i = (s.lane i).afterMatches v := by
  obtain ⟨t, -, ht⟩ := State.afterMatches_spec hs v
  rw [ht, State.lane_setLane_same]

theorem State.afterMatches_state (hs : (s.lane i).state ≠ .armed) (v : CueView) :
    ((s.afterMatches i v).lane i).state = (s.lane i).state := by
  obtain ⟨c, a, st, h⟩ := (s.lane i).afterMatches_keeps v
  rw [State.afterMatches_lane hs, h]

theorem State.afterMatches_brake (hs : (s.lane i).state ≠ .armed) (v : CueView) :
    ((s.afterMatches i v).lane i).brake = (s.lane i).brake := by
  obtain ⟨c, a, st, h⟩ := (s.lane i).afterMatches_keeps v
  rw [State.afterMatches_lane hs, h]

/-- A lane at rest, neither ARMED nor HELD, has nothing to stop (R20). -/
theorem applyStop_at_rest {late : LaneSet} {m : StopMode} (ha : (s.lane i).state ≠ .armed)
    (hm : ¬ ((s.lane i).state = .run ∨ (s.lane i).state = .brake)) (hh : (s.lane i).state ≠ .held) :
    s.applyStop late i m = none := by
  obtain ⟨hrun, hbrake⟩ := not_or.mp hm
  refine applyStop_of_still ?_
  cases h : (s.lane i).state with
  | off | idle | stopped | frozen => decide
  | armed => exact absurd h ha
  | run => exact absurd h hrun
  | brake => exact absurd h hbrake
  | held => exact absurd h hh

/-- A stop NOW among the matching cues, from RUN, BRAKE or HELD (R59, R61). -/
theorem State.cuePart_of_stopNow (h : .stopNow ∈ v.actions (s.lane i))
    (hs : ((s.afterMatches i v).lane i).state = .run ∨ ((s.afterMatches i v).lane i).state = .brake ∨
      ((s.afterMatches i v).lane i).state = .held) : s.cuePart i v = (s.afterMatches i v).stopNow 0 i := by
  rw [State.cuePart_eq, if_pos h, applyStop_now hs, Option.getD_some]

/-- A RAMP is the stop that acts: it matches and NOW does not (R61). -/
theorem State.cuePart_of_stopRamp {t : State} (hn : .stopNow ∉ v.actions (s.lane i))
    (h : .stopRamp ∈ v.actions (s.lane i)) (ht : (s.afterMatches i v).applyStop 0 i .ramp = some t) :
    s.cuePart i v = t := by
  rw [State.cuePart_eq, if_neg hn, if_pos h, ht, Option.getD_some]

/-- No stop acts when none matches, or the one that would act has no effect (R59, R61). -/
theorem State.cuePart_of_no_stop
    (hn : .stopNow ∈ v.actions (s.lane i) → (s.afterMatches i v).applyStop 0 i .now = none)
    (hr : .stopRamp ∈ v.actions (s.lane i) → (s.afterMatches i v).applyStop 0 i .ramp = none) :
    s.cuePart i v = s.afterMatches i v := by
  rw [State.cuePart_eq]
  split
  · rename_i h
    rw [hn h]; rfl
  · split
    · rename_i h
      rw [hr h]; rfl
    · rfl

end

/-- Settles O39: the conditions by source and method, the pulses by `pulses_start_what_awaits_sync`, and the cue part by
`State.afterMatches_spec`, on whose state the table of stops acts. -/
theorem cuesMatchAndAct : Obligations.CuesMatchAndAct := by
  refine ⟨fun v c => ⟨CueView.hits_iff, CueView.holds_of_itemEntry, fun before after hvalues => ?_⟩,
    pulses_start_what_awaits_sync, fun s i v => ?_⟩
  · have hspec : c.source ≠ .itemEntry ∧ v.values c.source = (before, after) := by
      rcases hvalues with ⟨hs, rfl, rfl⟩ | ⟨hs, rfl, rfl⟩ | ⟨hs, rfl, rfl⟩ <;> rw [hs]
      · exact ⟨by decide, rfl⟩
      · exact ⟨by decide, rfl⟩
      · exact ⟨by decide, by simp [CueView.values, BitVec.toNat_add]⟩
    obtain ⟨hs, hv⟩ := hspec
    refine ⟨fun hm => ?_, fun hm => ?_⟩
    · rw [CueView.holds_of_reach hs hm, hv]
    · rw [CueView.holds_of_cross hs hm, hv]
  · intro l r hit act moves ramps hs
    obtain ⟨t, hmatched, ht⟩ := State.afterMatches_spec hs v
    have hact (a : CueAction) : a ∈ v.actions l ↔ act a := CueView.mem_actions
    have hlane : (s.afterMatches i v).lane i = l.afterMatches v := State.afterMatches_lane hs v
    have hevents : (s.afterMatches i v).events = t.events := by rw [ht]; rfl
    obtain ⟨c, a, st, hkeeps⟩ := l.afterMatches_keeps v
    have hstate : ((s.afterMatches i v).lane i).state = l.state := State.afterMatches_state hs v
    have hbrake : ((s.afterMatches i v).lane i).brake = l.brake := State.afterMatches_brake hs v
    have hmoves : moves ↔ ((s.afterMatches i v).lane i).state = .run ∨ ((s.afterMatches i v).lane i).state = .brake := by
      rw [hstate]
    refine ⟨s.afterMatches i v, ?_, ?_, ?_, ?_, ?_, fun k => ?_, fun p hl hp => ?_, fun hl => ?_, fun n hn => ?_,
      fun mask hmask j hj => ?_, fun hn hm => ?_, fun hn hh => ?_, fun hr hm hb => ?_, fun hr hh => ?_, fun hno => ?_⟩
    · rw [ht]
      exact lanesAndEvents_trans hmatched.rest rfl
    · rw [hevents]; exact hmatched.mask
    · rw [hevents]; exact hmatched.groups
    · rw [hevents]; exact hmatched.group_keeps
    · rw [hlane, hkeeps]
    · rw [hlane]; exact l.afterMatches_cue v k
    · rw [hlane, Lane.afterMatches_of_load ((hact _).mpr hl) hp]
      exact ⟨rfl, rfl, rfl⟩
    · rw [hlane, Lane.afterMatches_of_no_load (hl.imp_left fun h => fun hmem => h ((hact _).mp hmem))]
      exact ⟨rfl, rfl, rfl⟩
    · rw [hevents, hmatched.pending hn]
      simp only [CueView.mem_matching]
      exact Iff.rfl
    · have hunion : ∀ j : LaneId, mask.getLsbD j.val = true ↔
          ∃ k ∈ v.matching l, l.cues[k].syncMask.getLsbD j.val = true := by
        simpa only [CueView.mem_matching] using hmask
      rw [hevents, ht, State.lane_setLane_ne _ hj.symm]
      exact (hmatched.others j hj).trans (foldl_pulses_agrees hunion s j)
    · exact (State.cuePart_of_stopNow ((hact _).mpr hn) ((hmoves.mp hm).imp_right .inl)).trans
        (stopNow_of_moving (hmoves.mp hm))
    · have hheld := hstate.trans hh
      exact (State.cuePart_of_stopNow ((hact _).mpr hn) (.inr (.inr hheld))).trans (stopNow_of_held hheld)
    · obtain ⟨hn, hr⟩ := hr
      exact State.cuePart_of_stopRamp (fun h => hn ((hact _).mp h)) ((hact _).mpr hr)
        ((applyStop_moving_ramp (hmoves.mp hm)).trans (if_neg (hbrake ▸ hb)))
    · obtain ⟨hn, hr⟩ := hr
      exact State.cuePart_of_stopRamp (fun h => hn ((hact _).mp h)) ((hact _).mpr hr)
        (applyStop_held_ramp (hstate.trans hh))
    · rcases hno with ⟨hn, hr⟩ | ⟨hm, hh⟩
      · refine State.cuePart_of_no_stop (fun h => absurd ((hact _).mp h) hn) fun h => ?_
        obtain ⟨hm, hb⟩ := hr.resolve_left (not_not.mpr ((hact _).mp h))
        exact (applyStop_moving_ramp (hmoves.mp hm)).trans (if_pos (hbrake.trans hb))
      · have hnone (m : StopMode) : (s.afterMatches i v).applyStop 0 i m = none :=
          applyStop_at_rest (hstate.symm ▸ hs) (fun h => hm (hmoves.mpr h)) (hstate.symm ▸ hh)
        exact State.cuePart_of_no_stop (fun _ => hnone _) fun _ => hnone _

end Sys2Proof.Machine

namespace Sys2Proof.Machine

/-! ### Requests that name a symbol (R76) -/

section
variable {s : State} {b : List Byte} {slot : Nat} {r : SymbolRec}

theorem withSymbol_none (h : findCode s.symbols (fieldBytes b 0 8) = none) (rule : Nat → SymbolRec → State × Reply) :
    withSymbol b s rule = refuse s .noSymbol := by
  rw [withSymbol, codeField, h]

theorem withSymbol_some (h : findCode s.symbols (fieldBytes b 0 8) = some (slot, r))
    (rule : Nat → SymbolRec → State × Reply) : withSymbol b s rule = rule slot r := by
  rw [withSymbol, codeField, h]

theorem State.symbol?_of_findCode {code : SymCode} (hr : tableRising s.symbols = true)
    (h : findCode s.symbols code = some (slot, r)) : s.symbol? slot = some r :=
  (findCode_eq_some hr h).1

/-! ### A changed record and the offer of its view list (R91) -/

theorem State.symbol?_updSymbol_some (h : s.symbol? slot = some r) (f : SymbolRec → SymbolRec) (j : Nat) :
    (s.updSymbol slot f).symbol? j = if j = slot then some (f r) else s.symbol? j := by
  rw [State.symbol?_updSymbol, h, Option.map_some]

theorem State.offerView_some (h : s.symbol? slot = some r) : s.offerView slot = r.viewList.foldl State.offer s := by
  rw [State.offerView, h]

/-- A changed record's view list is the one the changed record holds. -/
theorem State.offerView_updSymbol (h : s.symbol? slot = some r) (f : SymbolRec → SymbolRec) :
    (s.updSymbol slot f).offerView slot = (f r).viewList.foldl State.offer (s.updSymbol slot f) :=
  State.offerView_some (by rw [State.symbol?_updSymbol_some h, if_pos rfl])

/-- A factor raised after the change, or not, leaves the view list to offer as it is. -/
theorem State.offerView_updSymbol_raise (h : s.symbol? slot = some r) (f : SymbolRec → SymbolRec) (raises : Bool)
    (factor : Factor) :
    (if raises then (s.updSymbol slot f).raise factor else s.updSymbol slot f).offerView slot =
      (f r).viewList.foldl State.offer
        (if raises then (s.updSymbol slot f).raise factor else s.updSymbol slot f) := by
  have hfound : (s.updSymbol slot f).symbol? slot = some (f r) := by rw [State.symbol?_updSymbol_some h, if_pos rfl]
  cases raises with
  | false => exact State.offerView_some hfound
  | true => exact State.offerView_some (s := (s.updSymbol slot f).raise factor) hfound

/-- A request whose rule changes one record and offers its view list. -/
theorem answers_changed_and_offered {k tag : Byte} {rule : List Byte → State → State × Reply} {f : SymbolRec → SymbolRec}
    (h : s.holds k tag b) (hl : lengthFits k b.length = true) (hs : s.symbol? slot = some r)
    (hrule : rule b s = accept ((s.updSymbol slot f).offerView slot)) :
    ∃ u : State, u = { s with symbols := u.symbols } ∧
      (∀ j, u.symbol? j = if j = slot then some (f r) else s.symbol? j) ∧
      (Host.Outcome.next (serve k tag b rule s) : Answer) =
        .next (((f r).viewList.foldl State.offer u).answered k tag 0x00 []) :=
  ⟨s.updSymbol slot f, rfl, State.symbol?_updSymbol_some hs f,
    answers_ok h hl (by rw [hrule, State.offerView_updSymbol hs])⟩

/-! ### The fields of the symbol requests -/

theorem referenceBad_iff {v : Nat} : referenceBad v = true ↔ 999999999 < v ∧ v ≠ 0xFFFFFFFF := by
  rw [referenceBad, Bool.and_eq_true, decide_eq_true_iff, decide_eq_true_iff]; rfl

theorem codeChar_iff {c : Byte} : codeChar c = true ↔ 0x41 ≤ c.toNat ∧ c.toNat ≤ 0x5A ∨ 0x30 ≤ c.toNat ∧ c.toNat ≤ 0x39 ∨
    c = 0x2E ∨ c = 0x2D ∨ c = 0x2F := by
  simp [codeChar, or_assoc]

/-- A valid code (R76) splits at its first byte that is no code character, and the rest is padding. -/
theorem codeValid_iff {code : SymCode} : codeValid code = true ↔ ∃ chars : List Byte, chars ≠ [] ∧ chars.length ≤ 8 ∧
    code = chars ++ List.replicate (8 - chars.length) 0x20 ∧
    ∀ c ∈ chars, 0x41 ≤ c.toNat ∧ c.toNat ≤ 0x5A ∨ 0x30 ≤ c.toNat ∧ c.toNat ≤ 0x39 ∨
      c = 0x2E ∨ c = 0x2D ∨ c = 0x2F := by
  simp only [← codeChar_iff]
  have hpad : codeChar padByte = false := by decide
  constructor
  · intro h
    simp only [codeValid, Bool.and_eq_true, decide_eq_true_eq, Bool.not_eq_true', List.isEmpty_eq_false_iff,
      List.all_eq_true, beq_iff_eq] at h
    obtain ⟨⟨hlen, hne⟩, hrest⟩ := h
    have hsplit := List.takeWhile_append_dropWhile (p := codeChar) (l := code)
    have hlengths : (code.takeWhile codeChar).length + (code.dropWhile codeChar).length = 8 := by
      rw [← List.length_append, hsplit, hlen]
    have hpadding : code.dropWhile codeChar = List.replicate (8 - (code.takeWhile codeChar).length) padByte :=
      List.eq_replicate_iff.mpr ⟨by omega, hrest⟩
    refine ⟨code.takeWhile codeChar, hne, by omega, ?_, fun c hc => List.mem_takeWhile_imp hc⟩
    exact hsplit.symm.trans (congrArg _ hpadding)
  · rintro ⟨chars, hne, hlen, rfl, hchars⟩
    have htake : (List.replicate (8 - chars.length) padByte).takeWhile codeChar = [] := by
      rw [List.takeWhile_replicate, hpad]; rfl
    have hdrop : (List.replicate (8 - chars.length) padByte).dropWhile codeChar =
        List.replicate (8 - chars.length) padByte := by
      rw [List.dropWhile_replicate, hpad]; rfl
    have htaken : (chars ++ List.replicate (8 - chars.length) padByte).takeWhile codeChar = chars := by
      rw [List.takeWhile_append_of_pos hchars, htake, List.append_nil]
    have hdropped : (chars ++ List.replicate (8 - chars.length) padByte).dropWhile codeChar =
        List.replicate (8 - chars.length) padByte := by
      rw [List.dropWhile_append_of_pos hchars, hdrop]
    have hlength : (chars ++ List.replicate (8 - chars.length) padByte).length = 8 := by
      rw [List.length_append, List.length_replicate]; omega
    change codeValid (chars ++ List.replicate (8 - chars.length) padByte) = true
    simp [codeValid, htaken, hdropped, hlength, hne]

/-- The serial comparison of R80, in natural numbers. -/
theorem seqAhead_iff {last : Option (BitVec 16)} {seq : Nat} : seqAhead last (BitVec.ofNat 16 seq) = true ↔
    ∀ l, last = some l → 1 ≤ (seq + 65536 - l.toNat) % 65536 ∧ (seq + 65536 - l.toNat) % 65536 ≤ 32767 := by
  cases last with
  | none => simp [seqAhead]
  | some l =>
    have hdiff : (BitVec.ofNat 16 seq - l).toNat = (seq + 65536 - l.toNat) % 65536 := by
      have := l.isLt
      rw [BitVec.toNat_sub, BitVec.toNat_ofNat]; omega
    simp [seqAhead, hdiff]

/-! ### SYM_DEFINE and SYM_REMOVE (R78, R79) -/

/-- The fields of a SYM_DEFINE body that fail a check (R78). -/
def DefineBad (b : List Byte) : Prop :=
  ¬ codeValid (fieldBytes b 0 8) = true ∨ 7 < field b 8 1 ∨ 6 < field b 9 1 ∨
    999999999 < field b 10 4 ∧ field b 10 4 ≠ 0xFFFFFFFF

/-- The record SYM_DEFINE forms (R78). -/
def definedRecord (b : List Byte) (cls : Fin 8) (s : State) : SymbolRec :=
  { code := fieldBytes b 0 8, cls := cls, decimals := field b 9 1, price := none, previous := none
    reference := referenceOf (field b 10 4), lastSeq := none, halted := false, stale := false
    lastUpdate := s.clock.counter, refCount := 0, viewList := [] }

theorem symDefineRule_of_bad (h : DefineBad b) : symDefineRule b s = refuse s .badParam := by
  rw [symDefineRule]
  cases hc : small? 8 (field b 8 1) with
  | none => rfl
  | some cls =>
    have hcls := small?_some hc
    refine if_pos ?_
    simp only [Bool.or_eq_true, Bool.not_eq_true', decide_eq_true_eq, referenceBad_iff, codeField]
    rcases h with h | h | h | h
    · exact .inl (.inl (Bool.not_eq_true _ ▸ h))
    · omega
    · exact .inl (.inr h)
    · exact .inr h

theorem symDefineRule_of_good (h : ¬ DefineBad b) : ∃ cls : Fin 8, field b 8 1 = cls.val ∧ symDefineRule b s =
    if (findCode s.symbols (fieldBytes b 0 8)).isSome then refuse s .exists
    else match lowestFree s.symbols 1024 with
      | none => refuse s .tableFull
      | some slot => ({ s with symbols := tablePut s.symbols slot (definedRecord b cls s) }, okWith (be 2 slot)) := by
  simp only [DefineBad, not_or, not_not] at h
  obtain ⟨hvalid, hcls, hdec, href⟩ := h
  obtain ⟨cls, hc⟩ := small?_isSome_iff.mpr (show field b 8 1 < 8 by omega)
  refine ⟨cls, small?_some hc, ?_⟩
  rw [symDefineRule, hc]
  refine (if_neg ?_).trans rfl
  simp only [Bool.or_eq_true, Bool.not_eq_true', decide_eq_true_eq, referenceBad_iff, codeField]
  rintro ((hv | hd) | hv)
  · exact absurd (hvalid.symm.trans hv) (by decide)
  · exact hdec hd
  · exact href hv

end

/-- Settles O41: the checks of the body are `DefineBad`, the free slot is `lowestFree`, and a write or a removal touches one
slot of a rising table. -/
theorem symbolsAreDefinedAndRemoved : Obligations.SymbolsAreDefinedAndRemoved := by
  intro tag b s hr code
  refine ⟨fun h hlen => ?_, fun h hlen => ?_⟩
  · have hl : lengthFits 0x40 b.length = true := by rw [hlen]; rfl
    intro ends valid bad
    have hbad : bad ↔ DefineBad b := or_congr (not_congr codeValid_iff.symm) Iff.rfl
    refine ⟨fun hb => answers_refused .badParam h hl (symDefineRule_of_bad (hbad.mp hb)), fun hgood hcode => ?_,
      fun hgood hcode => ⟨fun hfull => ?_, fun slot cls hslot hfree hlow hcls => ?_⟩⟩
    · obtain ⟨cls, -, hrule⟩ := symDefineRule_of_good (s := s) (mt hbad.mpr hgood)
      exact answers_refused .exists h hl (by rw [hrule, if_pos (Option.isSome_iff_ne_none.mpr hcode)])
    · obtain ⟨cls, -, hrule⟩ := symDefineRule_of_good (s := s) (mt hbad.mpr hgood)
      have hnone : lowestFree s.symbols 1024 = none := (lowestFree_eq_none hr).mpr hfull
      exact answers_refused .tableFull h hl (by rw [hrule, if_neg (by rw [hcode]; simp), hnone])
    · obtain ⟨cls', hcls', hrule⟩ := symDefineRule_of_good (s := s) (mt hbad.mpr hgood)
      obtain rfl : cls = cls' := Fin.ext (hcls.symm.trans hcls')
      have hsome : lowestFree s.symbols 1024 = some slot := (lowestFree_eq_some hr).mpr ⟨hslot, hfree, hlow⟩
      refine ⟨tablePut s.symbols slot (definedRecord b cls s), answers_data h hl ?_, fun j => tableFind_put hr⟩
      rw [hrule, if_neg (by rw [hcode]; simp), hsome]
  · have hl : lengthFits 0x45 b.length = true := by rw [hlen]; rfl
    refine ⟨fun hcode => answers_refused .noSymbol h hl (withSymbol_none hcode _), fun slot r hcode =>
      ⟨fun hin => answers_refused .inUse h hl ?_, fun hout => ⟨tableErase s.symbols slot, answers_ok h hl ?_,
        fun j => tableFind_erase hr⟩⟩⟩
    · rw [symRemoveRule, withSymbol_some hcode, if_pos hin]
    · rw [symRemoveRule, withSymbol_some hcode, if_neg (by omega)]

/-! ### SYM_PRICE (R80, R81) -/

/-- Settles O42: `seqAhead_iff` is the serial comparison, and the view list offered is the changed record's, with
FRESH raised before it or not. -/
theorem priceUpdatesFollowTheirSequence : Obligations.PriceUpdatesFollowTheirSequence := by
  intro tag b s h hlen hr ends seq price
  have hl : lengthFits 0x41 b.length = true := by rw [hlen]; rfl
  refine ⟨fun hcode => answers_refused .noSymbol h hl (withSymbol_none hcode _), fun slot r hcode => ?_⟩
  intro ahead
  have hrec := State.symbol?_of_findCode hr hcode
  have hahead : ahead ↔ seqAhead r.lastSeq (BitVec.ofNat 16 seq) = true := seqAhead_iff.symm
  refine ⟨fun hp => answers_refused .badParam h hl ?_, fun hp hh => answers_refused .halted h hl ?_,
    fun hp hh hn => answers_refused .superseded h hl ?_, fun hp hh ha => ?_⟩
  · rw [symPriceRule, withSymbol_some hcode]
    exact if_pos hp
  · rw [symPriceRule, withSymbol_some hcode]
    exact (if_neg (Nat.not_lt.mpr hp)).trans (if_pos hh)
  · rw [symPriceRule, withSymbol_some hcode]
    refine (if_neg (Nat.not_lt.mpr hp)).trans ((if_neg (by simp [hh])).trans (if_pos ?_))
    simpa using mt hahead.mpr hn
  · let priced : SymbolRec → SymbolRec := fun r => r.priced price (BitVec.ofNat 16 seq) s.clock.counter
    refine ⟨s.updSymbol slot priced, rfl, State.symbol?_updSymbol_some hrec priced, answers_ok h hl ?_⟩
    rw [symPriceRule, withSymbol_some hcode]
    refine (if_neg (Nat.not_lt.mpr hp)).trans ((if_neg (by simp [hh])).trans ((if_neg ?_).trans ?_))
    · simpa using hahead.mp ha
    · exact congrArg accept (State.offerView_updSymbol_raise hrec priced r.stale .fresh)

/-! ### SYM_REFERENCE, SYM_HALT and SYM_RESUME (R83 to R85) -/

/-- Settles O43: each rule, its checks passed, changes one record and offers its view list. -/
theorem referencesHaltsAndResumesAreOffered : Obligations.ReferencesHaltsAndResumesAreOffered := by
  intro tag b s hr changed
  refine ⟨fun h hlen => ?_, fun h hlen => ?_, fun h hlen => ?_⟩
  · have hl : lengthFits 0x42 b.length = true := by rw [hlen]; rfl
    intro v bad
    refine ⟨fun hcode => answers_refused .noSymbol h hl (withSymbol_none hcode _), fun slot r hcode =>
      ⟨fun hbad => answers_refused .badParam h hl ?_, fun hgood => ?_⟩⟩
    · rw [symReferenceRule, withSymbol_some hcode]
      exact if_pos (referenceBad_iff.mpr hbad)
    · refine answers_changed_and_offered (f := fun r => { r with reference := referenceOf v }) h hl
        (State.symbol?_of_findCode hr hcode) ?_
      rw [symReferenceRule, withSymbol_some hcode]
      exact if_neg (mt referenceBad_iff.mp hgood)
  · have hl : lengthFits 0x43 b.length = true := by rw [hlen]; rfl
    refine ⟨fun hcode => answers_refused .noSymbol h hl (withSymbol_none hcode _), fun slot r hcode =>
      ⟨fun hh => answers_refused .noEffect h hl ?_, fun hh => ?_⟩⟩
    · rw [symHaltRule, withSymbol_some hcode, if_pos hh]
    · refine answers_changed_and_offered (f := fun r => { r with halted := true }) h hl
        (State.symbol?_of_findCode hr hcode) ?_
      rw [symHaltRule, withSymbol_some hcode, if_neg (by simp [hh])]
  · have hl : lengthFits 0x44 b.length = true := by rw [hlen]; rfl
    refine ⟨fun hcode => answers_refused .noSymbol h hl (withSymbol_none hcode _), fun slot r hcode =>
      ⟨fun hh => answers_refused .noEffect h hl ?_, fun hh => ?_⟩⟩
    · rw [symResumeRule, withSymbol_some hcode, if_neg (by simp [hh])]
    · refine answers_changed_and_offered (f := fun r => { r with halted := false, lastSeq := none }) h hl
        (State.symbol?_of_findCode hr hcode) ?_
      rw [symResumeRule, withSymbol_some hcode, if_pos hh]

/-! ### CLASS_SETUP and SYMBOL_STALE (R77, R86) -/

section
variable {s : State} {slot : Nat} {r : SymbolRec}

theorem SymbolRec.due_iff {timeout : Nat} {c : BitVec 32} :
    r.due timeout c = true ↔ 0 < timeout ∧ r.stale = false ∧ timeout ≤ (c - r.lastUpdate).toNat := by
  simp [SymbolRec.due, and_assoc]

theorem State.checkSymbol_none (h : s.symbol? slot = none) : s.checkSymbol slot = s := by
  rw [State.checkSymbol, h]

theorem State.checkSymbol_some (h : s.symbol? slot = some r) : s.checkSymbol slot =
    if r.due s.classes[r.cls].staleTimeout s.clock.counter = true then
      (r.viewList.foldl State.offer (s.updSymbol slot fun r => { r with stale := true })).raise .stale
    else s := by
  rw [State.checkSymbol, h, State.offerView_updSymbol h]

end

/-- Settles O44: the check of one symbol is `State.checkSymbol_some`, and `SymbolRec.due_iff` says when it is due. -/
theorem classesMakeSymbolsStale : Obligations.ClassesMakeSymbolsStale := by
  intro s
  refine ⟨fun tag b h hlen => ?_, fun _ slot => ⟨fun hnone => ?_, fun r hrec => ?_⟩⟩
  · have hl : lengthFits 0x48 b.length = true := by rw [hlen]; rfl
    refine ⟨fun hk => answers_refused .badParam h hl ?_, fun k hk => answers_ok h hl ?_⟩
    · rw [classSetupRule, small?_none hk]
    · rw [classSetupRule, small?_eq hk]
  · exact congrArg Host.Outcome.next (State.checkSymbol_none hnone)
  · refine ⟨fun hnot => ?_, fun hdue => ⟨s.updSymbol slot fun r => { r with stale := true }, rfl,
      State.symbol?_updSymbol_some hrec _, ?_⟩⟩
    · exact congrArg Host.Outcome.next ((State.checkSymbol_some hrec).trans (if_neg (mt SymbolRec.due_iff.mp hnot)))
    · exact congrArg Host.Outcome.next ((State.checkSymbol_some hrec).trans (if_pos (SymbolRec.due_iff.mpr hdue)))

end Sys2Proof.Machine

namespace Sys2Proof.Machine

/-! ### Windows of a body -/

section
variable {b b' : List Byte} {off w n p j : Nat}

theorem getElem?_fieldBytes (h : j < n) : (fieldBytes b off n)[j]? = b[off + j]? := by
  rw [fieldBytes, List.getElem?_take_of_lt h, List.getElem?_drop]

theorem length_fieldBytes (h : off + n ≤ b.length) : (fieldBytes b off n).length = n := by
  rw [fieldBytes, List.length_take, List.length_drop]
  omega

theorem fieldBytes_congr (h : ∀ j < n, b[off + j]? = b'[off + j]?) : fieldBytes b off n = fieldBytes b' off n := by
  refine List.ext_getElem? fun j => ?_
  by_cases hj : j < n
  · rw [getElem?_fieldBytes hj, getElem?_fieldBytes hj, h j hj]
  · rw [fieldBytes, fieldBytes, List.getElem?_take_eq_none (Nat.not_lt.mp hj),
      List.getElem?_take_eq_none (Nat.not_lt.mp hj)]

theorem field_one_congr (h : b[p]? = b'[p]?) : field b p 1 = field b' p 1 :=
  congrArg beValue (fieldBytes_congr fun j hj => by rwa [Nat.lt_one_iff.mp hj])

theorem fieldBytes_fieldBytes (h : off + w ≤ n) : fieldBytes (fieldBytes b p n) off w = fieldBytes b (p + off) w := by
  rw [fieldBytes, fieldBytes, fieldBytes, List.drop_take, List.take_take, List.drop_drop, min_eq_left (by omega)]

theorem field_of_window (h : off + w ≤ n) : field (fieldBytes b p n) off w = field b (p + off) w :=
  congrArg beValue (fieldBytes_fieldBytes h)

theorem fieldBytes_add (b : List Byte) (off m n : Nat) :
    fieldBytes b off (m + n) = fieldBytes b off m ++ fieldBytes b (off + m) n := by
  rw [fieldBytes, fieldBytes, fieldBytes, List.take_add, List.drop_drop]

theorem be_one (v : Nat) : be 1 v = [BitVec.ofNat 8 v] := by simp [be]

theorem fieldBytes_one (h : p < b.length) : fieldBytes b p 1 = [b.getD p 0] := by
  rw [fieldBytes, List.drop_eq_getElem_cons h, List.getD_eq_getElem _ _ h]
  rfl

theorem ofNat_field (h : p < b.length) : BitVec.ofNat 8 (field b p 1) = b.getD p 0 := by
  have hone := fieldBytes_one h
  rw [fieldBytes] at hone
  simp [field, hone, beValue]

/-- A one-byte field is written back as it was carried. -/
theorem be_field (h : p < b.length) : be 1 (field b p 1) = fieldBytes b p 1 := by
  rw [be_one, ofNat_field h, fieldBytes_one h]

/-- The bytes of a window, one by one. -/
theorem fieldBytes_eq_map (h : off + n ≤ b.length) :
    fieldBytes b off n = (List.range n).map fun k => b.getD (off + k) 0 := by
  induction n with
  | zero => rfl
  | succ n ih =>
    rw [fieldBytes_add, ih (by omega), fieldBytes_one (by omega), List.range_succ, List.map_append]
    rfl

/-- A part at the front of a place of `size` bytes, 0 beyond it. -/
def padded (part : List Byte) (size : Nat) : List Byte := part ++ List.replicate (size - part.length) 0

theorem length_padded {part : List Byte} (h : part.length ≤ n) : (padded part n).length = n := by
  rw [padded, List.length_append, List.length_replicate]
  omega

theorem getElem?_padded_fieldBytes (hb : off + w ≤ b.length) (hj : j < n) :
    (padded (fieldBytes b off w) n)[j]? = if j < w then b[off + j]? else some 0 := by
  have hlen := length_fieldBytes hb
  split
  · next h => rw [padded, List.getElem?_append_left (by omega), getElem?_fieldBytes h]
  · next h =>
    rw [padded, List.getElem?_append_right (by omega), List.getElem?_replicate, if_pos (by omega)]

end

/-! ### The template a TEMPLATE_SET body spells (R93, R94) -/

section
variable {b : List Byte} {k n : Nat}

/-- Field slot k fails check 1 of R94. -/
def SlotBad (b : List Byte) (k : Nat) : Prop :=
  6 < field b (30 + 10 * k) 1 ∨
    field b (30 + 10 * k) 1 = 6 ∧ (field b (31 + 10 * k) 1 = 0 ∨ 8 < field b (31 + 10 * k) 1)

/-- Check 1 of R94, the template number apart. -/
def TemplateBad (b : List Byte) : Prop :=
  1 < field b 1 1 ∨ 246 < field b 2 1 ∨ (∃ k, k < 8 ∧ 15 < field b (12 + k) 1) ∨ field b 20 1 = 0 ∨ 8 < field b 20 1 ∨
    field b 29 1 = 0 ∨ 8 < field b 29 1 ∨ ∃ k, k < field b 29 1 ∧ SlotBad b k

/-- A body that passes check 1 of R94, the template number apart. -/
structure TemplateGood (b : List Byte) : Prop where
  grouping : field b 1 1 ≤ 1
  digits : field b 2 1 ≤ 246
  colours : ∀ k, k < 8 → field b (12 + k) 1 ≤ 15
  halt : 1 ≤ field b 20 1 ∧ field b 20 1 ≤ 8
  count : 1 ≤ field b 29 1 ∧ field b 29 1 ≤ 8
  slots : ∀ k, k < field b 29 1 → ¬ SlotBad b k

theorem templateGood_iff : TemplateGood b ↔ ¬ TemplateBad b := by
  simp only [TemplateBad, not_or, not_exists, not_and, Nat.not_lt, ← Nat.one_le_iff_ne_zero (n := field _ _ _)]
  exact ⟨fun ⟨hg, hd, hc, hh, hn, hs⟩ => ⟨hg, hd, hc, hh.1, hh.2, hn.1, hn.2, hs⟩,
    fun ⟨hg, hd, hc, hh, hh', hn, hn', hs⟩ => ⟨hg, hd, hc, ⟨hh, hh'⟩, ⟨hn, hn'⟩, hs⟩⟩

/-- The field that slot k spells. -/
def slotField (b : List Byte) (k : Nat) : TemplateField :=
  match field b (30 + 10 * k) 1 with
  | 0 => .symbol
  | 1 => .price
  | 2 => .change
  | 3 => .percent
  | 4 => .arrow
  | 5 => .gap (field b (31 + 10 * k) 1)
  | _ => .literal (fieldBytes b (32 + 10 * k) (field b (31 + 10 * k) 1))

/-- The palette index in a byte of a body. -/
def colourAt (b : List Byte) (p : Nat) : Fin 16 := Fin.ofNat 16 (field b p 1)

/-- The template that a body spells. -/
def spelledTemplate (b : List Byte) : Template :=
  { fields := (List.range (field b 29 1)).map (slotField b)
    numerals :=
      { digit0 := b.getD 2 0, point := b.getD 3 0, separator := b.getD 4 0, plus := b.getD 5 0, minus := b.getD 6 0
        percent := b.getD 7 0, up := b.getD 8 0, down := b.getD 9 0, flat := b.getD 10 0, noValue := b.getD 11 0 }
    halt := fieldBytes b 21 (field b 20 1)
    grouping := decide (field b 1 1 = 1)
    colours :=
      { up := colourAt b 12, down := colourAt b 13, flat := colourAt b 14, halted := colourAt b 15
        stale := colourAt b 16, flashUp := colourAt b 17, flashDown := colourAt b 18, noPrice := colourAt b 19 } }

theorem colourAt_val {p : Nat} (h : field b p 1 ≤ 15) : (colourAt b p).val = field b p 1 :=
  Nat.mod_eq_of_lt (by omega)

theorem small?_colourAt {p : Nat} (h : field b p 1 ≤ 15) : small? 16 (field b p 1) = some (colourAt b p) :=
  small?_eq (colourAt_val h).symm

theorem templateField?_eq (b : List Byte) (k : Nat) : templateField? (fieldBytes b (30 + 10 * k) 10) =
    match field b (30 + 10 * k) 1 with
    | 0 => some .symbol
    | 1 => some .price
    | 2 => some .change
    | 3 => some .percent
    | 4 => some .arrow
    | 5 => some (.gap (field b (31 + 10 * k) 1))
    | 6 => if field b (31 + 10 * k) 1 = 0 ∨ field b (31 + 10 * k) 1 > 8 then none
        else some (.literal (fieldBytes b (32 + 10 * k) (field b (31 + 10 * k) 1)))
    | _ => none := by
  have hcount : field (fieldBytes b (30 + 10 * k) 10) 1 1 = field b (31 + 10 * k) 1 := by
    rw [field_of_window (by decide), show 30 + 10 * k + 1 = 31 + 10 * k by omega]
  simp only [templateField?, hcount, field_of_window (show 0 + 1 ≤ 10 by decide), Nat.add_zero]
  generalize field b (30 + 10 * k) 1 = kind
  match kind with
  | 0 | 1 | 2 | 3 | 4 | 5 => rfl
  | 6 =>
    refine ite_congr rfl (fun _ => rfl) fun h => ?_
    rw [fieldBytes_fieldBytes (by omega), show 30 + 10 * k + 2 = 32 + 10 * k by omega]
  | kind + 7 => rfl

theorem templateField?_of_good (h : ¬ SlotBad b k) :
    templateField? (fieldBytes b (30 + 10 * k) 10) = some (slotField b k) := by
  rw [templateField?_eq, slotField]
  unfold SlotBad at h
  generalize field b (30 + 10 * k) 1 = kind at h
  match kind with
  | 0 | 1 | 2 | 3 | 4 | 5 => rfl
  | 6 => exact if_neg (by omega)
  | kind + 7 => omega

theorem templateField?_of_bad (h : SlotBad b k) : templateField? (fieldBytes b (30 + 10 * k) 10) = none := by
  rw [templateField?_eq]
  unfold SlotBad at h
  generalize field b (30 + 10 * k) 1 = kind at h
  match kind with
  | 0 | 1 | 2 | 3 | 4 | 5 => omega
  | 6 => exact if_pos (by omega)
  | kind + 7 => rfl

theorem templateFields?_of_good {m : Nat} (h : ∀ k, m ≤ k → k < m + n → ¬ SlotBad b k) :
    templateFields? b n (30 + 10 * m) = some ((List.range' m n).map (slotField b)) := by
  induction n generalizing m with
  | zero => rfl
  | succ n ih =>
    rw [templateFields?, templateField?_of_good (h m le_rfl (by omega)), show 30 + 10 * m + 10 = 30 + 10 * (m + 1) by omega,
      ih fun k hm hk => h k (by omega) (by omega)]
    rfl

theorem slots_good_of_templateFields? {m : Nat} {fields : List TemplateField}
    (h : templateFields? b n (30 + 10 * m) = some fields) (hm : m ≤ k) (hk : k < m + n) : ¬ SlotBad b k := by
  induction n generalizing m fields with
  | zero => omega
  | succ n ih =>
    simp only [templateFields?, Option.bind_eq_bind, Option.bind_eq_some_iff] at h
    obtain ⟨f, hf, fs, hfs, -⟩ := h
    rcases hm.eq_or_lt with rfl | hm
    · intro hbad
      rw [templateField?_of_bad hbad] at hf
      cases hf
    · exact ih (m := m + 1) (by rwa [show 30 + 10 * m + 10 = 30 + 10 * (m + 1) by omega] at hfs) hm (by omega)

theorem templateOf_of_good (h : TemplateGood b) : templateOf b = some (spelledTemplate b) := by
  obtain ⟨hgroup, hdigit, hcolours, hhalt, hcount, hslots⟩ := h
  have hcolour (j : Nat) (hj : j < 8) := small?_colourAt (hcolours j hj)
  have hfields := templateFields?_of_good (b := b) (n := field b 29 1) (m := 0) fun k _ hk => hslots k (by omega)
  rw [← List.range_eq_range'] at hfields
  simp only [templateOf, Option.bind_eq_bind, Option.bind_eq_some_iff, Option.bind_none, Option.ite_none_left_eq_some]
  exact ⟨_, bool?_eq hgroup, Nat.not_lt.mpr hdigit, _, hcolour 0 (by decide), _, hcolour 1 (by decide), _,
    hcolour 2 (by decide), _, hcolour 3 (by decide), _, hcolour 4 (by decide), _, hcolour 5 (by decide), _,
    hcolour 6 (by decide), _, hcolour 7 (by decide), by omega, _, hfields, rfl⟩

theorem good_of_templateOf {t : Template} (h : templateOf b = some t) : TemplateGood b := by
  simp only [templateOf, Option.bind_eq_bind, Option.bind_eq_some_iff, Option.bind_none, Option.ite_none_left_eq_some] at h
  obtain ⟨_, hgroup, hdigit, up, hup, down, hdown, flat, hflat, halted, hhalted, stale, hstale, flashUp, hflashUp, flashDown,
    hflashDown, noPrice, hnoPrice, hsizes, fields, hfields, -⟩ := h
  have hcolour {v : Nat} {i : Fin 16} (h : small? 16 v = some i) : v ≤ 15 := by
    rw [small?_some h]; omega
  refine ⟨bool?_some hgroup, Nat.not_lt.mp hdigit, fun k hk => ?_, by omega, by omega, fun k hk =>
    slots_good_of_templateFields? (m := 0) hfields (Nat.zero_le k) (by omega)⟩
  interval_cases k
  exacts [hcolour hup, hcolour hdown, hcolour hflat, hcolour hhalted, hcolour hstale, hcolour hflashUp,
    hcolour hflashDown, hcolour hnoPrice]

theorem templateOf_of_bad (h : TemplateBad b) : templateOf b = none :=
  Option.eq_none_iff_forall_ne_some.mpr fun _ ht => templateGood_iff.mp (good_of_templateOf ht) h

end

/-! ### The bytes of a template (R94, R96) -/

/-- The ten codes of a numeral map, in the order of R93. -/
def NumeralMap.codes (m : NumeralMap) : List Byte :=
  [m.digit0, m.point, m.separator, m.plus, m.minus, m.percent, m.up, m.down, m.flat, m.noValue]

/-- The eight indices of a colour map as bytes, in the order of R93. -/
def ColourMap.codes (m : ColourMap) : List Byte :=
  [m.up, m.down, m.flat, m.halted, m.stale, m.flashUp, m.flashDown, m.noPrice].map
    fun (x : Fin 16) => BitVec.ofNat 8 x.val

/-- The first 19 bytes: grouping flag, numeral map and colour map. -/
def templateHead (t : Template) : List Byte :=
  (if t.grouping then 1 else 0) :: t.numerals.codes ++ t.colours.codes

/-- The next 10 bytes: the halt literal with its length, and the field count. -/
def templateMiddle (t : Template) : List Byte :=
  be 1 t.halt.length ++ padded t.halt 8 ++ be 1 t.fields.length

/-- The bytes that a field slot uses; none stands for a slot after the field count. -/
def slotBytes : Option TemplateField → List Byte
  | none => []
  | some .symbol => [0]
  | some .price => [1]
  | some .change => [2]
  | some .percent => [3]
  | some .arrow => [4]
  | some (.gap w) => [5, BitVec.ofNat 8 w]
  | some (.literal codes) => [6, BitVec.ofNat 8 codes.length] ++ codes

/-- The field slots of a list of fields in a place of n slots. -/
def templateSlots (n : Nat) (fields : List TemplateField) : List Byte :=
  fields.flatMap fieldSlot ++ List.replicate (10 * (n - fields.length)) 0

/-- A template within the sizes of R93. -/
structure Template.Fits (t : Template) : Prop where
  halt : t.halt.length ≤ 8
  fields : t.fields.length ≤ 8
  literals : ∀ codes, .literal codes ∈ t.fields → codes.length ≤ 8

section
variable {t : Template} {n k : Nat} {fields : List TemplateField}

theorem templateBytes_eq (t : Template) :
    templateBytes t = templateHead t ++ (templateMiddle t ++ templateSlots 8 t.fields) := by
  have hflag : boolByte t.grouping = [if t.grouping then 1 else 0] := by cases t.grouping <;> rfl
  simp only [templateBytes, hflag, be_one, templateHead, templateMiddle, templateSlots, eightBytes, padded,
    NumeralMap.codes, ColourMap.codes, List.append_assoc]
  rfl

theorem length_templateHead (t : Template) : (templateHead t).length = 19 := rfl

theorem length_templateMiddle (h : t.halt.length ≤ 8) : (templateMiddle t).length = 10 := by
  rw [templateMiddle, be_one, be_one, List.length_append, List.length_append, length_padded h]
  rfl

theorem fieldSlot_eq (f : TemplateField) (h : ∀ codes, f = .literal codes → codes.length ≤ 8) :
    fieldSlot f = padded (slotBytes (some f)) 10 := by
  cases f with
  | literal codes =>
    have hlen : 10 - (codes.length + 2) = 8 - codes.length := by omega
    simp [fieldSlot, slotBytes, padded, eightBytes, be_one, hlen]
  | gap w => simp [fieldSlot, slotBytes, padded, eightBytes, be_one]
  | _ => rfl

theorem length_slotBytes_le (f : TemplateField) (h : ∀ codes, f = .literal codes → codes.length ≤ 8) :
    (slotBytes (some f)).length ≤ 10 := by
  cases f with
  | literal codes =>
    have := h codes rfl
    simp only [slotBytes, List.length_append, List.length_cons, List.length_nil]
    omega
  | _ => simp [slotBytes]

theorem templateSlots_cons (f : TemplateField) (n : Nat) (fields : List TemplateField) :
    templateSlots (n + 1) (f :: fields) = fieldSlot f ++ templateSlots n fields := by
  rw [templateSlots, templateSlots, List.flatMap_cons, List.append_assoc, List.length_cons, Nat.add_sub_add_right]

theorem length_fieldSlot (f : TemplateField) (h : ∀ codes, f = .literal codes → codes.length ≤ 8) :
    (fieldSlot f).length = 10 := by
  rw [fieldSlot_eq f h, length_padded (length_slotBytes_le f h)]

theorem length_templateSlots (hn : fields.length ≤ n) (h : ∀ codes, .literal codes ∈ fields → codes.length ≤ 8) :
    (templateSlots n fields).length = 10 * n := by
  induction fields generalizing n with
  | nil => simp [templateSlots]
  | cons f fields ih =>
    obtain ⟨n, rfl⟩ := Nat.exists_eq_add_one_of_ne_zero (show n ≠ 0 by rw [List.length_cons] at hn; omega)
    rw [templateSlots_cons, List.length_append, length_fieldSlot f fun codes e => h codes (e ▸ List.mem_cons_self),
      ih (Nat.le_of_succ_le_succ hn) fun codes hc => h codes (List.mem_cons_of_mem _ hc)]
    omega

/-- Slot k of the field slots holds what field k uses, and 0 beyond it. -/
theorem templateSlots_window (hn : fields.length ≤ n) (h : ∀ codes, .literal codes ∈ fields → codes.length ≤ 8)
    (hk : k < n) : fieldBytes (templateSlots n fields) (10 * k) 10 = padded (slotBytes fields[k]?) 10 := by
  induction fields generalizing n k with
  | nil =>
    simp only [templateSlots, List.flatMap_nil, List.nil_append, fieldBytes, List.drop_replicate, List.take_replicate,
      padded, slotBytes, List.getElem?_nil, List.length_nil]
    congr 1
    omega
  | cons f fields ih =>
    obtain ⟨n, rfl⟩ := Nat.exists_eq_add_one_of_ne_zero (show n ≠ 0 by omega)
    have hf : ∀ codes, f = .literal codes → codes.length ≤ 8 := fun codes e => h codes (e ▸ List.mem_cons_self)
    have hlen := length_fieldSlot f hf
    rw [templateSlots_cons]
    cases k with
    | zero => rw [fieldBytes, Nat.mul_zero, List.drop_zero, List.take_left' hlen, fieldSlot_eq f hf]; rfl
    | succ k =>
      rw [List.getElem?_cons_succ, ← ih (Nat.le_of_succ_le_succ hn) (fun codes hc => h codes (List.mem_cons_of_mem _ hc))
        (show k < n by omega), fieldBytes, fieldBytes, show 10 * (k + 1) = (fieldSlot f).length + 10 * k by omega,
        List.drop_length_add_append]

/-- The parts of the 109 bytes of a template (R94, R96). -/
theorem templateBytes_layout (h : t.Fits) : (templateBytes t).length = 109 ∧
    (templateBytes t).take 19 = templateHead t ∧ ((templateBytes t).drop 19).take 10 = templateMiddle t ∧
    ∀ k, k < 8 → ((templateBytes t).drop (29 + 10 * k)).take 10 = padded (slotBytes t.fields[k]?) 10 := by
  have hhead := length_templateHead t
  have hmiddle := length_templateMiddle h.halt
  have hslots := length_templateSlots h.fields h.literals
  rw [templateBytes_eq]
  refine ⟨by rw [List.length_append, List.length_append, hhead, hmiddle, hslots], List.take_left' hhead, ?_,
    fun k hk => ?_⟩
  · rw [List.drop_left' hhead, List.take_left' hmiddle]
  · rw [← List.append_assoc, show 29 + 10 * k = (templateHead t ++ templateMiddle t).length + 10 * k by
        rw [List.length_append, hhead, hmiddle], List.drop_length_add_append]
    exact templateSlots_window h.fields h.literals hk

end

/-! ### The bytes of a template that a body spells (R94) -/

section
variable {b : List Byte} {k p : Nat}

/-- How many bytes of slot k its field uses (R94). -/
def slotSize (b : List Byte) (k : Nat) : Nat :=
  if field b (30 + 10 * k) 1 < 5 then 1
  else if field b (30 + 10 * k) 1 = 5 then 2
  else 2 + field b (31 + 10 * k) 1

/-- How many bytes of slot k are examined: none after the field count. -/
def slotUsed (b : List Byte) (k : Nat) : Nat := if field b 29 1 ≤ k then 0 else slotSize b k

/-- The bytes of a TEMPLATE_SET body, after its number, that are examined (R94). -/
def Examined (b : List Byte) (p : Nat) : Prop :=
  p < 21 ∨ p < 29 ∧ p - 21 < field b 20 1 ∨ p = 29 ∨ 30 ≤ p ∧ (p - 30) / 10 < field b 29 1 ∧
    ((p - 30) % 10 = 0 ∨ (p - 30) % 10 = 1 ∧ 5 ≤ field b (30 + 10 * ((p - 30) / 10)) 1 ∨
      2 ≤ (p - 30) % 10 ∧ field b (30 + 10 * ((p - 30) / 10)) 1 = 6 ∧
        (p - 30) % 10 - 2 < field b (31 + 10 * ((p - 30) / 10)) 1)

/-- A byte of slot k is examined when it is one of those its field uses. -/
theorem examined_slot_iff (h : TemplateGood b) (hk : k < 8) {j : Nat} (hj : j < 10) :
    Examined b (30 + 10 * k + j) ↔ j < slotUsed b k := by
  have hslot : (30 + 10 * k + j - 30) / 10 = k := by omega
  have hbyte : (30 + 10 * k + j - 30) % 10 = j := by omega
  have hkind := h.slots k
  unfold SlotBad at hkind
  unfold Examined slotUsed slotSize
  rw [hslot, hbyte]
  split
  · omega
  · split
    · omega
    · split <;> omega

/-- What a good slot spells, by its kind: a field with no parameter, a GAP or a LITERAL. -/
theorem slotField_cases (h : ¬ SlotBad b k) :
    (field b (30 + 10 * k) 1 < 5 ∧ slotBytes (some (slotField b k)) = [BitVec.ofNat 8 (field b (30 + 10 * k) 1)] ∧
      ∀ codes, slotField b k ≠ .literal codes) ∨
    (field b (30 + 10 * k) 1 = 5 ∧ slotField b k = .gap (field b (31 + 10 * k) 1)) ∨
    (field b (30 + 10 * k) 1 = 6 ∧ field b (31 + 10 * k) 1 ≤ 8 ∧
      slotField b k = .literal (fieldBytes b (32 + 10 * k) (field b (31 + 10 * k) 1))) := by
  unfold SlotBad at h
  unfold slotField
  generalize field b (30 + 10 * k) 1 = kind at h
  match kind with
  | 0 | 1 | 2 | 3 | 4 => exact .inl ⟨by decide, rfl, fun _ => nofun⟩
  | 5 => exact .inr (.inl ⟨rfl, rfl⟩)
  | 6 => exact .inr (.inr ⟨rfl, by omega, rfl⟩)
  | kind + 7 => omega

theorem spelledTemplate_fields (b : List Byte) (k : Nat) :
    (spelledTemplate b).fields[k]? = if k < field b 29 1 then some (slotField b k) else none := by
  rw [spelledTemplate, List.getElem?_map]
  split
  · next h => rw [List.getElem?_range h]; rfl
  · next h => rw [List.getElem?_eq_none (by rw [List.length_range]; omega)]; rfl

theorem spelledTemplate_count (b : List Byte) : (spelledTemplate b).fields.length = field b 29 1 := by
  rw [spelledTemplate, List.length_map, List.length_range]

theorem spelledTemplate_numerals (hb : b.length = 110) : (spelledTemplate b).numerals.codes = fieldBytes b 2 10 := by
  rw [fieldBytes_eq_map (by omega)]
  rfl

theorem spelledTemplate_colours (hb : b.length = 110) (h : TemplateGood b) :
    (spelledTemplate b).colours.codes = fieldBytes b 12 8 := by
  have hcolour (j : Nat) (hj : j < 8) : BitVec.ofNat 8 (colourAt b (12 + j)).val = b.getD (12 + j) 0 := by
    rw [colourAt_val (h.colours j hj), ofNat_field (by omega)]
  rw [fieldBytes_eq_map (by omega)]
  exact List.map_congr_left (f := fun j => BitVec.ofNat 8 (colourAt b (12 + j)).val) (l := List.range 8)
    fun j hj => hcolour j (List.mem_range.mp hj)

theorem spelledTemplate_fits (hb : b.length = 110) (h : TemplateGood b) : (spelledTemplate b).Fits := by
  refine ⟨?_, (spelledTemplate_count b).trans_le h.count.2, fun codes hmem => ?_⟩
  · exact (length_fieldBytes (by have := h.halt; omega)).trans_le h.halt.2
  · obtain ⟨k, hk, hf⟩ := List.mem_map.mp hmem
    rcases slotField_cases (h.slots k (List.mem_range.mp hk)) with ⟨-, -, hne⟩ | ⟨-, hgap⟩ | ⟨-, hsize, hlit⟩
    · exact absurd hf (hne codes)
    · rw [hgap] at hf
      cases hf
    · rw [hlit] at hf
      cases hf
      exact (List.length_take_le ..).trans hsize

theorem templateHead_spelled (hb : b.length = 110) (h : TemplateGood b) :
    templateHead (spelledTemplate b) = fieldBytes b 1 19 := by
  have hflag : [if (spelledTemplate b).grouping then (1 : Byte) else 0] = fieldBytes b 1 1 := by
    rw [← be_field (by omega), be_one]
    have := h.grouping
    change [if decide (field b 1 1 = 1) = true then (1 : Byte) else 0] = _
    generalize field b 1 1 = v at this
    interval_cases v <;> rfl
  rw [show fieldBytes b 1 19 = fieldBytes b 1 1 ++ (fieldBytes b 2 10 ++ fieldBytes b 12 8) by
    rw [← fieldBytes_add b 2 10 8, ← fieldBytes_add b 1 1 18], ← hflag, ← spelledTemplate_numerals hb,
    ← spelledTemplate_colours hb h]
  rfl

theorem templateMiddle_spelled (hb : b.length = 110) (h : TemplateGood b) :
    templateMiddle (spelledTemplate b) = padded (fieldBytes b 20 (1 + field b 20 1)) 9 ++ fieldBytes b 29 1 := by
  have hhalt : (spelledTemplate b).halt = fieldBytes b 21 (field b 20 1) := rfl
  have hlen : (fieldBytes b 21 (field b 20 1)).length = field b 20 1 :=
    length_fieldBytes (by have := h.halt; omega)
  have hlen' : (fieldBytes b 20 (1 + field b 20 1)).length = 1 + field b 20 1 :=
    length_fieldBytes (by have := h.halt; omega)
  rw [templateMiddle, spelledTemplate_count, hhalt, hlen, be_field (by omega), be_field (by omega), padded, padded, hlen,
    hlen', fieldBytes_add, ← List.append_assoc, show 9 - (1 + field b 20 1) = 8 - field b 20 1 by omega]

/-- The slot of a field holds the bytes of the body that it uses. -/
theorem slotBytes_spelled (hb : b.length = 110) (h : TemplateGood b) (hk : k < 8) :
    slotBytes (spelledTemplate b).fields[k]? = fieldBytes b (30 + 10 * k) (slotUsed b k) := by
  rw [spelledTemplate_fields]
  unfold slotUsed slotSize
  by_cases hcount : k < field b 29 1
  · have hkind : fieldBytes b (30 + 10 * k) 1 = [BitVec.ofNat 8 (field b (30 + 10 * k) 1)] := by
      rw [← be_field (by omega), be_one]
    have hpair : fieldBytes b (30 + 10 * k) 2 =
        [BitVec.ofNat 8 (field b (30 + 10 * k) 1), BitVec.ofNat 8 (field b (31 + 10 * k) 1)] := by
      rw [fieldBytes_add b _ 1 1, hkind, show 30 + 10 * k + 1 = 31 + 10 * k by omega, ← be_field (by omega), be_one]
      rfl
    rw [if_pos hcount, if_neg (by omega)]
    rcases slotField_cases (h.slots k hcount) with ⟨hplain, hbytes, -⟩ | ⟨hgap, hf⟩ | ⟨hlit, hsize, hf⟩
    · rw [if_pos hplain, hbytes, hkind]
    · rw [if_neg (by omega), if_pos hgap, hf, hpair, hgap]
      rfl
    · have hlen : (fieldBytes b (32 + 10 * k) (field b (31 + 10 * k) 1)).length = field b (31 + 10 * k) 1 :=
        length_fieldBytes (by omega)
      rw [if_neg (by omega), if_neg (by omega), hf, fieldBytes_add, hpair, hlit,
        show 30 + 10 * k + 2 = 32 + 10 * k by omega, slotBytes, hlen]
      rfl
  · rw [if_neg hcount, if_pos (by omega)]
    rfl

theorem slotUsed_le (h : TemplateGood b) (k : Nat) : slotUsed b k ≤ 10 := by
  have hgood := h.slots k
  unfold SlotBad at hgood
  unfold slotUsed slotSize
  split
  · omega
  · split
    · omega
    · split <;> omega

/-- Of the template that a body spells, the examined bytes are the body's and every other byte is 0 (R94). -/
theorem templateBytes_spelled (hb : b.length = 110) (h : TemplateGood b) (h1 : 1 ≤ p) (hp : p < 110) :
    (Examined b p → (templateBytes (spelledTemplate b))[p - 1]? = b[p]?) ∧
      (¬ Examined b p → (templateBytes (spelledTemplate b))[p - 1]? = some 0) := by
  obtain ⟨-, hhead, hmiddle, hslots⟩ := templateBytes_layout (spelledTemplate_fits hb h)
  have hhalt := h.halt
  have hfront : (padded (fieldBytes b 20 (1 + field b 20 1)) 9).length = 9 :=
    length_padded (by rw [length_fieldBytes] <;> omega)
  have hsplit {x y : Option Byte} {q : Prop} [Decidable q] (hx : x = if q then y else some 0) (hq : Examined b p ↔ q) :
      (Examined b p → x = y) ∧ (¬ Examined b p → x = some 0) := by
    rw [hx, hq]
    exact ⟨fun h => if_pos h, fun h => if_neg h⟩
  rcases show p < 20 ∨ 20 ≤ p ∧ p < 29 ∨ p = 29 ∨ 30 ≤ p by omega with hlt | ⟨hge, hlt⟩ | rfl | hge
  · refine hsplit (q := True) ?_ (iff_true_intro (.inl (by omega)))
    rw [if_pos trivial, ← List.getElem?_take_of_lt (show p - 1 < 19 by omega), hhead, templateHead_spelled hb h,
      getElem?_fieldBytes (by omega), show 1 + (p - 1) = p by omega]
  · refine hsplit (q := p - 20 < 1 + field b 20 1) ?_ (by unfold Examined; omega)
    rw [show p - 1 = 19 + (p - 20) by omega, ← getElem?_fieldBytes (show p - 20 < 10 by omega), fieldBytes, hmiddle,
      templateMiddle_spelled hb h, List.getElem?_append_left (by omega),
      getElem?_padded_fieldBytes (by omega) (by omega), show 20 + (p - 20) = p by omega]
  · refine hsplit (q := True) ?_ (iff_true_intro (.inr (.inr (.inl rfl))))
    rw [if_pos trivial, show 29 - 1 = 19 + 9 by rfl, ← getElem?_fieldBytes (show 9 < 10 by omega), fieldBytes, hmiddle,
      templateMiddle_spelled hb h, List.getElem?_append_right hfront.le, hfront, getElem?_fieldBytes (by omega)]
  · obtain ⟨k, j, hk, hj, rfl⟩ : ∃ k j, k < 8 ∧ j < 10 ∧ p = 30 + 10 * k + j :=
      ⟨(p - 30) / 10, (p - 30) % 10, by omega, by omega, by omega⟩
    refine hsplit ?_ (examined_slot_iff h hk hj)
    rw [show 30 + 10 * k + j - 1 = 29 + 10 * k + j by omega, ← getElem?_fieldBytes hj, fieldBytes, hslots k hk,
      slotBytes_spelled hb h hk, getElem?_padded_fieldBytes (by have := slotUsed_le h k; omega) hj]

theorem slotSize_pos (b : List Byte) (k : Nat) : 0 < slotSize b k := by
  unfold slotSize
  split
  · decide
  · split <;> omega

/-- A slot that agrees with a good one in the bytes it uses is good and spells the same field. -/
theorem slotField_congr {b' : List Byte} (h : ¬ SlotBad b k)
    (hagree : ∀ j < slotSize b k, b'[30 + 10 * k + j]? = b[30 + 10 * k + j]?) :
    ¬ SlotBad b' k ∧ slotField b' k = slotField b k := by
  have hkind : field b' (30 + 10 * k) 1 = field b (30 + 10 * k) 1 := field_one_congr (hagree 0 (slotSize_pos b k))
  unfold slotSize at hagree
  have hsize (h5 : 5 ≤ field b (30 + 10 * k) 1) : field b' (31 + 10 * k) 1 = field b (31 + 10 * k) 1 := by
    rw [show 31 + 10 * k = 30 + 10 * k + 1 by omega]
    refine field_one_congr (hagree 1 ?_)
    rw [if_neg (by omega)]
    unfold SlotBad at h
    split <;> omega
  have hcodes (h6 : field b (30 + 10 * k) 1 = 6) : fieldBytes b' (32 + 10 * k) (field b (31 + 10 * k) 1) =
      fieldBytes b (32 + 10 * k) (field b (31 + 10 * k) 1) := fieldBytes_congr fun j hj => by
    rw [show 32 + 10 * k + j = 30 + 10 * k + (2 + j) by omega]
    refine hagree (2 + j) ?_
    rw [if_neg (by omega), if_neg (by omega)]
    omega
  unfold SlotBad at h ⊢
  unfold slotField
  rw [hkind]
  generalize field b (30 + 10 * k) 1 = kind at h hsize hcodes
  match kind with
  | 0 | 1 | 2 | 3 | 4 => exact ⟨by omega, rfl⟩
  | 5 => exact ⟨by omega, congrArg TemplateField.gap (hsize le_rfl)⟩
  | 6 =>
    rw [hsize (by omega), hcodes rfl]
    exact ⟨h, rfl⟩
  | kind + 7 => omega

/-- A body that agrees with a good one in every examined byte spells the same template. -/
theorem templateOf_of_agree {b' : List Byte} (h : TemplateGood b)
    (hagree : ∀ p, 1 ≤ p → p < 110 → Examined b p → b'[p]? = b[p]?) : templateOf b' = some (spelledTemplate b) := by
  have hhead (p : Nat) (h1 : 1 ≤ p) (hp : p < 21) : b'[p]? = b[p]? := hagree p h1 (by omega) (.inl hp)
  have hone (p : Nat) (h1 : 1 ≤ p) (hp : p < 21) : field b' p 1 = field b p 1 := field_one_congr (hhead p h1 hp)
  have hcount : field b' 29 1 = field b 29 1 :=
    field_one_congr (hagree 29 (by decide) (by decide) (.inr (.inr (.inl rfl))))
  have hslot (k : Nat) (hk : k < field b 29 1) : ¬ SlotBad b' k ∧ slotField b' k = slotField b k := by
    have hk8 := h.count.2
    have hused : slotUsed b k = slotSize b k := if_neg (by omega)
    have hle := slotUsed_le h k
    exact slotField_congr (h.slots k hk) fun j hj =>
      hagree _ (by omega) (by omega) ((examined_slot_iff h (by omega) (by omega)).mpr (by omega))
  have hgood : TemplateGood b' := by
    obtain ⟨hgroup, hdigit, hcolours, hhalt, hcounts, -⟩ := h
    refine ⟨by rwa [hone 1 (by decide) (by decide)], by rwa [hone 2 (by decide) (by decide)], fun k hk => ?_,
      by rwa [hone 20 (by decide) (by decide)], by rwa [hcount], fun k hk => (hslot k (hcount ▸ hk)).1⟩
    rw [hone _ (by omega) (by omega)]
    exact hcolours k hk
  have hhalt : fieldBytes b' 21 (field b 20 1) = fieldBytes b 21 (field b 20 1) := fieldBytes_congr fun j hj => by
    have := h.halt.2
    exact hagree _ (by omega) (by omega) (.inr (.inl ⟨by omega, by omega⟩))
  have hfields : (List.range (field b 29 1)).map (slotField b') = (List.range (field b 29 1)).map (slotField b) :=
    List.map_congr_left fun k hk => (hslot k (List.mem_range.mp hk)).2
  rw [templateOf_of_good hgood]
  simp (disch := decide) only [spelledTemplate, colourAt, List.getD_eq_getElem?_getD, hhead, hone, hcount, hhalt, hfields]

/-- The bytes of a template that was set spell the same template again (R94, R96). -/
theorem templateOf_templateBytes (hb : b.length = 110) (h : TemplateGood b) (n : Nat) :
    templateOf (be 1 n ++ templateBytes (spelledTemplate b)) = some (spelledTemplate b) :=
  templateOf_of_agree h fun p h1 hp hex => by
    rw [be_one, List.getElem?_append_right h1]
    exact (templateBytes_spelled hb h h1 hp).1 hex

end

/-! ### TEMPLATE_SET and TEMPLATE_QUERY (R94, R96) -/

section
variable {s : State} {b : List Byte} {t : Template} {n : Fin 8}

theorem State.templateInUse_iff : s.templateInUse n = true ↔
    ∃ i, (s.lane i).state ≠ .off ∧ (s.lane i).state ≠ .idle ∧ (s.lane i).setup.template = n := by
  simp [State.templateInUse, List.any_eq_true, mem_allLanes, Lane.inUse_iff, and_assoc]

theorem templateSetRule_of_bad (h : 7 < field b 0 1 ∨ TemplateBad b) : templateSetRule b s = refuse s .badParam := by
  rw [templateSetRule]
  rcases h with h | h
  · rw [small?_none h]
  · rw [templateOf_of_bad h]
    cases small? 8 (field b 0 1) <;> rfl

theorem templateSetRule_of_good (hn : field b 0 1 = n.val) (h : TemplateGood b) : templateSetRule b s =
    if worstCount (spelledTemplate b) > 48 then refuse s .tooLong
    else if s.templateInUse n = true then refuse s .inUse
    else accept { s with formatter :=
      { s.formatter with templates := s.formatter.templates.set n (spelledTemplate b) } } := by
  rw [templateSetRule, small?_eq hn, templateOf_of_good h]
  rfl

end

/-- Settles O46: a body that passes the checks is `TemplateGood` and spells `spelledTemplate`; `templateBytes_layout` lays
out the bytes of any template, and `templateBytes_spelled` those of a template that was set. -/
theorem templatesAreStoredAndReturned : Obligations.TemplatesAreStoredAndReturned := by
  intro tag b s worst
  have hworst (t : Template) : worst t = worstCount t :=
    congrArg List.sum (List.map_congr_left fun f _ => by cases f <;> rfl)
  refine ⟨fun h hlen => ?_, fun h hlen => ?_⟩
  · have hl : lengthFits 0x50 b.length = true := by rw [hlen]; rfl
    intro ends bad
    refine ⟨fun hb => answers_refused .badParam h hl (templateSetRule_of_bad hb), fun n hnot hn => ?_⟩
    have hgood : TemplateGood b := templateGood_iff.mpr fun hb => hnot (.inr hb)
    have hrule := templateSetRule_of_good (s := s) hn hgood
    refine ⟨spelledTemplate b, spelledTemplate_count b, rfl, rfl, spelledTemplate_numerals hlen,
      spelledTemplate_colours hlen hgood, fun k f hf => ?_, templateOf_templateBytes hlen hgood n.val,
      ⟨(templateBytes_layout (spelledTemplate_fits hlen hgood)).1, fun p => templateBytes_spelled hlen hgood⟩, ?_, ?_, ?_⟩
    · rw [spelledTemplate_fields, Option.ite_none_right_eq_some] at hf
      exact (Option.some.inj hf.2).symm
    · intro hlong
      rw [hworst] at hlong
      exact answers_refused .tooLong h hl (by rw [hrule, if_pos hlong])
    · intro hshort huse
      rw [hworst] at hshort
      exact answers_refused .inUse h hl (by rw [hrule, if_neg (by omega), if_pos (State.templateInUse_iff.mpr huse)])
    · intro hshort huse
      rw [hworst] at hshort
      exact answers_ok h hl (by rw [hrule, if_neg (by omega), if_neg (mt State.templateInUse_iff.mp huse)])
  · have hl : lengthFits 0x51 b.length = true := by rw [hlen]; rfl
    refine ⟨fun hn => answers_refused .badParam h hl (by rw [templateQueryRule, small?_none hn]),
      fun n hn => ⟨_, rfl, answers_data h hl ?_, fun hhalt hfields hlits => ?_⟩⟩
    · rw [templateQueryRule, small?_eq hn, hworst]
    · obtain ⟨hsize, hhead, hmiddle, hslots⟩ := templateBytes_layout ⟨hhalt, hfields, hlits⟩
      refine ⟨hsize, hhead, hmiddle, fun k hk => (hslots k hk).trans ?_⟩
      cases hf : s.formatter.templates[n].fields[k]? with
      | none => rfl
      | some f => cases f <;> rfl

end Sys2Proof.Machine

namespace Sys2Proof.Machine

/-! ### Digits (R97) -/

/-- A list of decimal digits, the most significant first, of a number. -/
def SpellsNumber (ds : List Nat) (n : Nat) : Prop :=
  (∀ k ∈ ds, k < 10) ∧ ds.foldl (fun a k => a * 10 + k) 0 = n

theorem SpellsNumber.snoc {ds : List Nat} {n : Nat} (h : SpellsNumber ds (n / 10)) : SpellsNumber (ds ++ [n % 10]) n := by
  refine ⟨fun k hk => ?_, ?_⟩
  · rcases List.mem_append.mp hk with hk | hk
    · exact h.1 k hk
    · rw [List.mem_singleton.mp hk]; omega
  · rw [List.foldl_append, h.2]
    exact Nat.div_add_mod' n 10

theorem spellsNumber_decDigits {fuel n : Nat} (h : n < 10 ^ (fuel + 1)) : SpellsNumber (decDigits fuel n) n := by
  induction fuel generalizing n with
  | zero => simp [decDigits, SpellsNumber]; omega
  | succ fuel ih =>
    unfold decDigits
    split
    · next hn => simp [SpellsNumber, hn]
    · exact (ih (Nat.div_lt_of_lt_mul (by rwa [pow_succ'] at h))).snoc

theorem decDigits_ne_nil (fuel n : Nat) : decDigits fuel n ≠ [] := by
  cases fuel with
  | zero => simp [decDigits]
  | succ fuel => unfold decDigits; split <;> simp

/-- No leading zeros: only 0 itself begins with 0. -/
theorem decDigits_head {fuel n : Nat} (h : n < 10 ^ (fuel + 1)) (h0 : (decDigits fuel n).head? = some 0) :
    decDigits fuel n = [0] := by
  induction fuel generalizing n with
  | zero => simpa [decDigits] using h0
  | succ fuel ih =>
    unfold decDigits at h0 ⊢
    split at h0
    · next hn => simpa [hn] using h0
    · next hn =>
      have hdiv : n / 10 < 10 ^ (fuel + 1) := Nat.div_lt_of_lt_mul (by rwa [pow_succ'] at h)
      rw [List.head?_append_of_ne_nil _ (decDigits_ne_nil _ _)] at h0
      have hzero := (spellsNumber_decDigits hdiv).2
      rw [ih hdiv h0] at hzero
      simp at hzero
      omega

theorem length_decDigits_le (fuel : Nat) {n m : Nat} (h : n < 10 ^ (m + 1)) : (decDigits fuel n).length ≤ m + 1 := by
  induction fuel generalizing n m with
  | zero => simp [decDigits]
  | succ fuel ih =>
    unfold decDigits
    split
    · simp
    · next hn =>
      cases m with
      | zero => omega
      | succ m => simpa using ih (Nat.div_lt_of_lt_mul (by rwa [pow_succ'] at h))

@[simp] theorem length_fixedDigits (d n : Nat) : (fixedDigits d n).length = d := by
  induction d generalizing n with
  | zero => rfl
  | succ d ih => simp [fixedDigits, ih]

theorem spellsNumber_fixedDigits {d n : Nat} (h : n < 10 ^ d) : SpellsNumber (fixedDigits d n) n := by
  induction d generalizing n with
  | zero =>
    obtain rfl : n = 0 := by simpa using h
    exact ⟨by simp [fixedDigits], rfl⟩
  | succ d ih => exact (ih (Nat.div_lt_of_lt_mul (by rwa [pow_succ'] at h))).snoc

/-! ### Grouping (R97) -/

section
variable {sep : Byte} {as bs cs : List Byte}

theorem groupThrees_of_length_le (h : cs.length ≤ 3) : groupThrees sep cs = cs := by
  induction cs with
  | nil => rfl
  | cons c cs ih =>
    rw [List.length_cons] at h
    rw [groupThrees, if_neg, ih (by omega)]
    rintro ⟨hne, hmod⟩
    have := List.length_pos_iff.mpr hne
    omega

/-- The leftmost group of one to three digits, and the separator between it and the whole groups after it. -/
theorem groupThrees_append (ha : as ≠ []) (h3 : as.length ≤ 3) (hb : bs ≠ []) (hmod : bs.length % 3 = 0) :
    groupThrees sep (as ++ bs) = as ++ sep :: groupThrees sep bs := by
  induction as with
  | nil => exact absurd rfl ha
  | cons a as ih =>
    rw [List.length_cons] at h3
    rw [List.cons_append, groupThrees]
    cases as with
    | nil => exact if_pos ⟨hb, hmod⟩
    | cons a' as =>
      rw [if_neg, ih (by simp) (by omega)]
      · rfl
      · rintro ⟨-, h⟩
        simp only [List.length_append, List.length_cons] at h h3
        omega

theorem length_groupThrees (sep : Byte) (cs : List Byte) : (groupThrees sep cs).length = cs.length + (cs.length - 1) / 3 := by
  induction cs with
  | nil => rfl
  | cons c cs ih =>
    rw [groupThrees]
    split
    · next h =>
      have := List.length_pos_iff.mpr h.1
      simp only [List.length_cons, ih]; omega
    · next h =>
      simp only [List.length_cons, ih]
      rcases List.eq_nil_or_concat cs with rfl | hne
      · rfl
      · have : cs.length % 3 ≠ 0 := fun hmod => h ⟨by rintro rfl; simp at hne, hmod⟩
        omega

end

/-! ### Amounts (R97) -/

section
variable {t : Template} {x d : Nat}

/-- The codes of decimal digits. -/
def digitCodes (t : Template) (ds : List Nat) : List Byte := ds.map (digitCode t.numerals)

/-- The digits of an integer part, with a separator before each whole group of three. -/
def groupedCodes (t : Template) (whole : List Nat) : List Byte :=
  if t.grouping = false ∨ whole.length ≤ 3 then digitCodes t whole
  else if whole.length ≤ 6 then
    digitCodes t (whole.take (whole.length - 3)) ++
      t.numerals.separator :: digitCodes t (whole.drop (whole.length - 3))
  else
    digitCodes t (whole.take (whole.length - 6)) ++ t.numerals.separator ::
      digitCodes t ((whole.drop (whole.length - 6)).take 3) ++
        t.numerals.separator :: digitCodes t (whole.drop (whole.length - 3))

/-- The digits in front of the last k and the last k themselves, for k a multiple of three. -/
theorem groupThrees_digitCodes (t : Template) {whole : List Nat} {k : Nat} (hk : k % 3 = 0) (h0 : 0 < k)
    (h1 : k < whole.length) (h3 : whole.length ≤ k + 3) :
    groupThrees t.numerals.separator (digitCodes t whole) = digitCodes t (whole.take (whole.length - k)) ++
      t.numerals.separator :: groupThrees t.numerals.separator (digitCodes t (whole.drop (whole.length - k))) := by
  rw [← groupThrees_append, digitCodes, digitCodes, digitCodes, ← List.map_append, List.take_append_drop]
  all_goals
    simp only [digitCodes, ne_eq, ← List.length_eq_zero_iff, List.length_map, List.length_take,
      List.length_drop]
    omega

theorem integerCodes_eq {n : Nat} (h : n < 10 ^ 9) : integerCodes t n = groupedCodes t (decDigits 20 n) := by
  have hlen : (decDigits 20 n).length ≤ 9 := length_decDigits_le 20 (m := 8) h
  have hshort {ds : List Nat} (h : ds.length ≤ 3) : groupThrees t.numerals.separator (digitCodes t ds) = digitCodes t ds :=
    groupThrees_of_length_le (by rwa [digitCodes, List.length_map])
  rw [integerCodes, groupedCodes]
  generalize decDigits 20 n = whole at hlen
  change (if t.grouping = true then groupThrees t.numerals.separator (digitCodes t whole) else digitCodes t whole) = _
  cases hg : t.grouping with
  | false => rfl
  | true =>
    rw [if_pos rfl]
    by_cases h3 : whole.length ≤ 3
    · rw [if_pos (.inr h3), hshort h3]
    rw [if_neg (by simpa using h3)]
    by_cases h6 : whole.length ≤ 6
    · rw [if_pos h6, groupThrees_digitCodes t (k := 3) rfl (by decide) (by omega) h6, hshort]
      rw [List.length_drop]; omega
    · have htail : (whole.drop (whole.length - 6)).length = 6 := by rw [List.length_drop]; omega
      rw [if_neg h6, groupThrees_digitCodes t (k := 6) rfl (by decide) (by omega) hlen,
        groupThrees_digitCodes t (k := 3) rfl (by decide) (by omega) (by omega), htail, hshort (by
          rw [List.length_drop, htail]),
        List.drop_drop, show whole.length - 6 + (6 - 3) = whole.length - 3 by omega, List.append_assoc]
      rfl

theorem length_integerCodes (t : Template) (n : Nat) : (integerCodes t n).length =
    (decDigits 20 n).length + if t.grouping = true then ((decDigits 20 n).length - 1) / 3 else 0 := by
  unfold integerCodes
  split <;> simp [length_groupThrees]

theorem printAmount_zero (t : Template) (x : Nat) : printAmount t x 0 = integerCodes t x := rfl

theorem printAmount_pos (h : d ≠ 0) : printAmount t x d =
    integerCodes t (x / 10 ^ d) ++ t.numerals.point :: digitCodes t (fixedDigits d (x % 10 ^ d)) := if_neg h

/-- The longest amounts: nine digits, a point, and two separators when the integer part keeps seven digits (R95). -/
theorem length_printAmount_le (hx : x ≤ 999999999) (hd : d ≤ 6) :
    (printAmount t x d).length ≤ if t.grouping = true then 12 else 11 := by
  have hint : x / 10 ^ d < 10 ^ (8 - d + 1) := by
    refine Nat.div_lt_of_lt_mul ?_
    rw [← pow_add, show d + (8 - d + 1) = 9 by omega]
    omega
  have hlen := length_decDigits_le 20 hint
  rcases Nat.eq_zero_or_pos d with rfl | h0
  · rw [printAmount_zero, length_integerCodes]
    rw [pow_zero, Nat.div_one] at hlen
    split <;> omega
  · rw [printAmount_pos (by omega), List.length_append, List.length_cons, digitCodes, List.length_map, length_fixedDigits,
      length_integerCodes]
    split <;> omega

end

/-! ### The condition of a symbol and the change it is measured by (R99 to R102) -/

section
variable {q : QuoteView} {t : Template} {p r : Nat}

theorem QuoteView.condition_eq_trading_iff : q.condition = .trading p ↔ q.price = some p ∧ q.halted = false := by
  unfold QuoteView.condition
  split
  · simp [*]
  · split <;> simp [*]

theorem QuoteView.condition_of_halted (hp : q.price = some p) (hh : q.halted = true) : q.condition = .halted := by
  simp [QuoteView.condition, hp, hh]

theorem QuoteView.condition_of_no_price (hp : q.price = none) : q.condition = .noPrice := by
  simp [QuoteView.condition, hp]

theorem QuoteView.measure_eq_some_iff : q.measure = some r ↔ q.reference = some r ∧ 0 < r := by
  unfold QuoteView.measure
  split
  · next r' h =>
    rw [h]
    split
    · simp; omega
    · simp; omega
  · simp [*]

theorem QuoteView.measure_eq_none_iff : q.measure = none ↔ q.reference = none ∨ q.reference = some 0 := by
  unfold QuoteView.measure
  split <;> simp [*]

theorem changeSize_eq (p r : Nat) : changeSize p r = if r < p then p - r else r - p := by
  unfold changeSize
  split <;> split <;> omega

theorem fixedDigits_two (n : Nat) : fixedDigits 2 n = [n / 10 % 10, n % 10] := rfl

theorem quoteStyle_of_measure (hr : q.measure = some r) (p : Nat) :
    quoteStyle p q.reference = if r < p then .up else if p < r then .down else .flat := by
  obtain ⟨hr, h0⟩ := QuoteView.measure_eq_some_iff.mp hr
  rw [hr]
  exact if_neg (by omega)

theorem quoteStyle_of_no_measure (hr : q.measure = none) (p : Nat) : quoteStyle p q.reference = .flat := by
  rcases QuoteView.measure_eq_none_iff.mp hr with hr | hr <;> rw [hr] <;> rfl

theorem percentHundredths_le (p r : Nat) : percentHundredths p r ≤ 99999 := Nat.min_le_left ..

theorem percentCodes_eq (t : Template) (p r : Nat) : percentCodes t p r =
    signCodes t p r ++ digitCodes t (decDigits 20 (percentHundredths p r / 100)) ++ [t.numerals.point] ++
      digitCodes t [percentHundredths p r % 100 / 10, percentHundredths p r % 10] ++ [t.numerals.percent] := by
  have hunits : percentHundredths p r % 100 % 10 = percentHundredths p r % 10 := by omega
  have htens : percentHundredths p r % 100 / 10 % 10 = percentHundredths p r % 100 / 10 := by omega
  simp only [percentCodes, fixedDigits_two, hunits, htens, digitCodes]

end

/-! ### What a quote renders (R97 to R103) -/

section
variable {q : QuoteView} {t : Template} {p r : Nat}

theorem fields_of_halted (h : q.condition = .halted) : priceCodes t q = t.halt ∧ changeField t q = [] ∧
    percentField t q = [] ∧ arrowField t q = [] ∧ q.style = .halted := by
  simp [priceCodes, changeField, percentField, arrowField, QuoteView.style, h]

theorem fields_of_no_price (h : q.condition = .noPrice) : priceCodes t q = [t.numerals.noValue] ∧
    changeField t q = [t.numerals.noValue] ∧ percentField t q = [t.numerals.noValue] ∧
    arrowField t q = [t.numerals.flat] ∧ q.style = .noPrice := by
  simp [priceCodes, changeField, percentField, arrowField, QuoteView.style, h]

theorem priceCodes_of_trading (h : q.condition = .trading p) : priceCodes t q = printAmount t p q.decimals := by
  rw [priceCodes, h]

theorem fields_of_no_measure (h : q.condition = .trading p) (hr : q.measure = none) :
    changeField t q = [t.numerals.noValue] ∧ percentField t q = [t.numerals.noValue] ∧
      arrowField t q = [t.numerals.flat] ∧ q.style = .flat := by
  simp [changeField, percentField, arrowField, QuoteView.style, h, hr, quoteStyle_of_no_measure hr, arrowCode]

theorem fields_of_measure (h : q.condition = .trading p) (hr : q.measure = some r) :
    changeField t q = changeCodes t p r q.decimals ∧ percentField t q = percentCodes t p r ∧
      arrowField t q = [if r < p then t.numerals.up else if p < r then t.numerals.down else t.numerals.flat] ∧
      q.style = if r < p then .up else if p < r then .down else .flat := by
  simp only [changeField, percentField, arrowField, QuoteView.style, h, hr, quoteStyle_of_measure hr, true_and, and_true]
  split
  · rfl
  · split <;> rfl

theorem filter_padding {chars : List Byte} (h : 0x20 ∉ chars) (pad : Nat) :
    (chars ++ List.replicate pad 0x20).filter (· != padByte) = chars := by
  have hkept : chars.filter (· != padByte) = chars :=
    List.filter_eq_self.mpr fun c hc => bne_iff_ne.mpr fun e => h (show padByte ∈ chars from e ▸ hc)
  have hcut : (List.replicate pad (0x20 : Byte)).filter (· != padByte) = [] := by
    rw [List.filter_eq_nil_iff]
    intro c hc
    rw [List.eq_of_mem_replicate hc]
    decide
  rw [List.filter_append, hkept, hcut, List.append_nil]

end

/-- Settles O47: the digits of an amount are `decDigits` and `fixedDigits`, grouped as `integerCodes_eq` has it, and the
fields follow from the condition and from the reference the change is measured by. -/
theorem quotesPrintAsStated : Obligations.QuotesPrintAsStated := by
  intro t digits spells
  refine ⟨fun x d hx hd => ?_, fun q chars pad hcode hchars => ⟨List.length_map _, fun n f hf => ?_⟩,
    fun q p hp hh => ?_⟩
  · have hwhole : x / 10 ^ d < 10 ^ 9 := (Nat.div_le_self ..).trans_lt (by omega)
    have hfuel : x / 10 ^ d < 10 ^ 21 := hwhole.trans (by decide)
    have hfrac : x % 10 ^ d < 10 ^ d := Nat.mod_lt _ (Nat.pow_pos (by decide))
    refine ⟨decDigits 20 (x / 10 ^ d), fixedDigits d (x % 10 ^ d), spellsNumber_decDigits hfuel, decDigits_ne_nil _ _,
      decDigits_head hfuel, spellsNumber_fixedDigits hfrac, length_fixedDigits _ _, ?_⟩
    intro sep n grouped
    have hgrouped : integerCodes t (x / 10 ^ d) = grouped := integerCodes_eq hwhole
    by_cases h0 : d = 0
    · subst h0
      rw [if_pos rfl, ← hgrouped, pow_zero, Nat.div_one, printAmount_zero]
    · rw [if_neg h0, ← hgrouped, printAmount_pos h0]
      rfl
  · refine ⟨renderField t q f, by rw [renderQuote, List.getElem?_map, hf, Option.map_some], ?_⟩
    cases f with
    | symbol => rw [renderField, hcode, filter_padding hchars]; rfl
    | _ => rfl
  · have hcond : q.condition = .trading p := QuoteView.condition_eq_trading_iff.mpr ⟨hp, hh⟩
    refine ⟨priceCodes_of_trading hcond, fun hr => fields_of_no_measure hcond (QuoteView.measure_eq_none_iff.mpr hr),
      fun r hr h0 => ?_, fields_of_halted (QuoteView.condition_of_halted (p := p) hp rfl),
      fun halted => fields_of_no_price (QuoteView.condition_of_no_price rfl)⟩
    intro sign size hundredths
    obtain ⟨hchange, hpercent, harrow, hstyle⟩ :=
      fields_of_measure (t := t) hcond (QuoteView.measure_eq_some_iff.mpr ⟨hr, h0⟩)
    have hsize : changeSize p r = size := changeSize_eq p r
    have hhundredths : percentHundredths p r = hundredths := by rw [percentHundredths, hsize]
    have hfuel : hundredths / 100 < 10 ^ 21 := by
      have := percentHundredths_le p r
      omega
    refine ⟨by rw [hchange, changeCodes, hsize]; rfl, ⟨decDigits 20 (hundredths / 100), spellsNumber_decDigits hfuel,
      decDigits_ne_nil _ _, decDigits_head hfuel, ?_⟩, harrow, hstyle⟩
    rw [hpercent, percentCodes_eq, hhundredths]
    rfl

/-! ### How many glyphs a quote renders (R95) -/

section
variable {q : QuoteView} {t : Template}

theorem length_signCodes_le (t : Template) (p r : Nat) : (signCodes t p r).length ≤ 1 := by
  unfold signCodes
  split
  · exact le_rfl
  · split <;> simp

theorem length_priceCodes_le (hhalt : t.halt.length ≤ 8) (hd : q.decimals ≤ 6)
    (hp : ∀ p, q.price = some p → p ≤ 999999999) :
    (priceCodes t q).length ≤ if t.grouping = true then 12 else 11 := by
  cases hc : q.condition with
  | trading p =>
    rw [priceCodes_of_trading hc]
    exact length_printAmount_le (hp p (QuoteView.condition_eq_trading_iff.mp hc).1) hd
  | halted =>
    rw [(fields_of_halted hc).1]
    split <;> omega
  | noPrice =>
    rw [(fields_of_no_price hc).1]
    split <;> simp

theorem length_changeField_le (hd : q.decimals ≤ 6) (hp : ∀ p, q.price = some p → p ≤ 999999999)
    (hr : ∀ r, q.reference = some r → r ≤ 999999999) :
    (changeField t q).length ≤ if t.grouping = true then 13 else 12 := by
  have hone : 1 ≤ if t.grouping = true then 13 else 12 := by split <;> decide
  cases hc : q.condition with
  | trading p =>
    cases hm : q.measure with
    | none => rw [(fields_of_no_measure hc hm).1]; exact hone
    | some r =>
      have hpr := hp p (QuoteView.condition_eq_trading_iff.mp hc).1
      have hrr := hr r (QuoteView.measure_eq_some_iff.mp hm).1
      have hsize : changeSize p r ≤ 999999999 := by rw [changeSize_eq]; split <;> omega
      have hprint := length_printAmount_le (t := t) hsize hd
      have hsign := length_signCodes_le t p r
      rw [(fields_of_measure hc hm).1, changeCodes, List.length_append]
      by_cases hg : t.grouping = true
      · rw [if_pos hg] at hprint ⊢; omega
      · rw [if_neg hg] at hprint ⊢; omega
  | halted => rw [(fields_of_halted hc).2.1]; exact Nat.zero_le _
  | noPrice => rw [(fields_of_no_price hc).2.1]; exact hone

theorem length_percentField_le : (percentField t q).length ≤ 8 := by
  cases hc : q.condition with
  | trading p =>
    cases hm : q.measure with
    | none => rw [(fields_of_no_measure hc hm).2.1]; exact Nat.one_le_ofNat
    | some r =>
      have hle := percentHundredths_le p r
      have hwhole : (decDigits 20 (percentHundredths p r / 100)).length ≤ 3 := length_decDigits_le 20 (m := 2) (by omega)
      have hsign := length_signCodes_le t p r
      rw [(fields_of_measure hc hm).2.1, percentCodes_eq]
      simp only [digitCodes, List.length_append, List.length_map, List.length_cons, List.length_nil]
      omega
  | halted => rw [(fields_of_halted hc).2.2.1]; decide
  | noPrice => rw [(fields_of_no_price hc).2.2.1]; exact Nat.one_le_ofNat

theorem length_arrowField_le : (arrowField t q).length ≤ 1 := by
  unfold arrowField
  split <;> simp

theorem glyphCount_flatEntries (fields : List RenderedField) :
    glyphCount (flatEntries fields) = (fields.map fun f => glyphCount f.entries).sum := by
  rw [glyphCount, flatEntries, List.countP_flatMap]
  rfl

theorem glyphCount_map_glyph (codes : List Byte) : glyphCount (codes.map .glyph) = codes.length := by
  rw [glyphCount, List.countP_map]
  exact List.countP_eq_length.mpr fun _ _ => rfl

theorem glyphCount_renderField_le (hhalt : t.halt.length ≤ 8) (hcode : q.code.length ≤ 8) (hd : q.decimals ≤ 6)
    (hp : ∀ p, q.price = some p → p ≤ 999999999) (hr : ∀ r, q.reference = some r → r ≤ 999999999) (f : TemplateField) :
    glyphCount (renderField t q f).entries ≤ worstField t.grouping f := by
  cases f with
  | symbol =>
    change glyphCount ((q.code.filter (· != padByte)).map .glyph) ≤ 8
    rw [glyphCount_map_glyph]
    exact (List.length_filter_le ..).trans hcode
  | price => exact (glyphCount_map_glyph _).trans_le (length_priceCodes_le hhalt hd hp)
  | change => exact (glyphCount_map_glyph _).trans_le (length_changeField_le hd hp hr)
  | percent => exact (glyphCount_map_glyph _).trans_le length_percentField_le
  | arrow => exact (glyphCount_map_glyph _).trans_le length_arrowField_le
  | gap w => exact le_rfl
  | literal codes => exact (glyphCount_map_glyph _).le

end

/-- Settles O48: field by field no rendering holds more glyphs than `worstField` counts. -/
theorem renderingsStayWithinTheWorstCount : Obligations.RenderingsStayWithinTheWorstCount := by
  intro t q hhalt hcode hd hp hr
  refine ⟨congrArg List.sum (List.map_congr_left fun f _ => by cases f <;> rfl), ?_⟩
  rw [glyphCount_flatEntries, renderQuote, List.map_map, worstCount]
  exact List.sum_le_sum fun f _ => glyphCount_renderField_le hhalt hcode hd hp hr f

end Sys2Proof.Machine

namespace Sys2Proof.Machine

/-! ### The refresh queue and its formattings (R107 to R112) -/

section
variable {s : State} {f : Formatting} {c : Cell} {slot : Nat} {it : Item}

theorem State.offer_of_queued (h : slot ∈ s.formatter.queue) : s.offer slot = s := if_pos h

theorem State.offer_of_full (h : slot ∉ s.formatter.queue) (hfull : 64 ≤ s.formatter.queue.length)
    (hit : s.item? slot = some it) : s.offer slot =
      { (s.updItem slot Item.forceStale).raise (.refreshDropped it.lane) with formatter := { s.formatter with
        inFlight := s.formatter.inFlight.map fun f => if f.item = slot then { f with overtaken := true } else f } } := by
  rw [State.offer, if_neg h, if_pos (show s.formatter.queue.length ≥ Config.refreshSlots from hfull), hit]
  rfl

theorem State.offer_of_room (h : slot ∉ s.formatter.queue) (hroom : s.formatter.queue.length < 64) : s.offer slot =
    State.takeRefresh { s with formatter := { s.formatter with queue := s.formatter.queue ++ [slot] } } :=
  (if_neg h).trans (if_neg (Nat.not_le.mpr hroom))

theorem State.takeRefresh_of_busy (h : s.formatter.inFlight ≠ none) : s.takeRefresh = s := by
  obtain ⟨f, hf⟩ := Option.ne_none_iff_exists'.mp h
  rw [State.takeRefresh, hf]

theorem State.takeRefresh_of_empty (h : s.formatter.queue = []) : s.takeRefresh = s := by
  rw [State.takeRefresh, h]
  cases s.formatter.inFlight <;> rfl

theorem State.takeRefresh_of_quote {rest : List Nat} {code : SymCode} {link : Nat} (hf : s.formatter.inFlight = none)
    (hq : s.formatter.queue = slot :: rest) (hit : s.item? slot = some it) (hc : it.content = .quote code link) :
    s.takeRefresh = { s with formatter := { s.formatter with
      queue := rest, inFlight := some (s.beginFormatting slot it code link) } } := by
  rw [State.takeRefresh, hf, hq]
  simp only [hit, hc]

theorem State.quoteView_some {r : SymbolRec} {link : Nat} (h : s.symbol? link = some r) (code : SymCode) :
    s.quoteView code link = r.view := by
  rw [State.quoteView, h]

/-- The formatting begun of a symbol that is there reads its record as it stands (R108). -/
theorem State.beginFormatting_some {r : SymbolRec} {link : Nat} (h : s.symbol? link = some r) (code : SymCode) :
    s.beginFormatting slot it code link =
      { item := slot, price := r.price, previous := r.previous, reference := r.reference, decimals := r.decimals
        halted := r.halted, fields := renderQuote (s.laneTemplate it.lane) r.view, style := r.view.style
        width := quoteWidth (s.laneFace it.lane) (renderQuote (s.laneTemplate it.lane) r.view)
        overtaken := false, discarded := false } := by
  rw [State.beginFormatting, State.quoteView_some h, h]
  rfl

/-- A refresh that completes is concluded, and the Formatter takes the next head. -/
theorem execRefreshComplete_of_inFlight {u : State} (hf : s.formatter.inFlight = some f) (hu : s.concludeRefresh f = u) :
    execRefreshComplete s =
      .next (State.takeRefresh { u with formatter := { u.formatter with inFlight := none } }) := by
  rw [execRefreshComplete, hf]
  simp only [hu]

theorem concludeRefresh_of_discarded (h : f.discarded = true) : s.concludeRefresh f = s := if_pos h

theorem concludeRefresh_of_wide (h : f.discarded = false) (hit : s.item? f.item = some it) (hc : it.cell = some c)
    (hw : c.width < f.width) :
    s.concludeRefresh f = (s.updItem f.item Item.forceStale).raise (.updateHeld it.lane) := by
  rw [State.concludeRefresh, if_neg (by simp [h]), hit]
  simp only [hc]
  exact if_neg (Nat.not_le.mpr hw)

theorem concludeRefresh_of_fitting (h : f.discarded = false) (hit : s.item? f.item = some it) (hc : it.cell = some c)
    (hw : f.width ≤ c.width) :
    s.concludeRefresh f = s.updItem f.item fun it' => { it' with cell := some (publish f (s.flashLength it) c) } := by
  rw [State.concludeRefresh, if_neg (by simp [h]), hit]
  simp only [hc]
  rw [if_pos hw]
  exact State.updItem_congr hit (by rw [hc, Option.map_some])

theorem State.flashLength_of_quote {code : SymCode} {link : Nat} {r : SymbolRec} (hc : it.content = .quote code link)
    (hr : s.symbol? link = some r) : s.flashLength it = s.classes[r.cls].flashLength := by
  simp only [State.flashLength, hc, hr]

/-- The conditions of R111 under which a publication over these rendered fields starts a flash. -/
def Flashes (f : Formatting) (c : Cell) (fields : List RenderedField) : Prop :=
  (∃ x ∈ f.fields, x.kind = .price) ∧ priceEntries f.fields ≠ priceEntries fields ∧ f.halted = false ∧
    c.style ≠ .halted ∧ c.style ≠ .noPrice ∧ f.price ≠ none ∧ f.previous ≠ none ∧ f.price ≠ f.previous

/-- The cell that a publication shows, its flash apart (R110). -/
def shownCell (f : Formatting) (c : Cell) : Cell :=
  { c with rendering := .quote f.fields, style := f.style, forcedStale := c.forcedStale && f.overtaken }

theorem flashOf_of_flashes {fields : List RenderedField} {p p' : Nat} (hc : c.rendering = .quote fields)
    (h : Flashes f c fields) (hp : f.price = some p) (hp' : f.previous = some p') :
    flashOf f c = some (if p' < p then .up else .down) := by
  obtain ⟨⟨x, hx, hkind⟩, hentries, hhalted, hstyle, hstyle', -, -, hne⟩ := h
  have hany : f.fields.any (fun x => decide (x.kind = .price)) = true :=
    List.any_eq_true.mpr ⟨x, hx, decide_eq_true hkind⟩
  rw [hp, hp', ne_eq, Option.some.injEq] at hne
  rw [flashOf, hc, if_pos ⟨hany, hentries, hhalted, hstyle, hstyle'⟩, hp, hp']
  by_cases hup : p' < p
  · simp [hup]
  · simp [hup, show p < p' by omega]

theorem flashOf_of_not_flashes {fields : List RenderedField} (hc : c.rendering = .quote fields)
    (h : ¬ Flashes f c fields) : flashOf f c = none := by
  rw [flashOf, hc]
  refine ite_eq_right_iff.mpr fun ⟨hany, hentries, hhalted, hstyle, hstyle'⟩ => ?_
  obtain ⟨x, hx, hkind⟩ := List.any_eq_true.mp hany
  cases hp : f.price with
  | none => rfl
  | some p =>
    cases hp' : f.previous with
    | none => rfl
    | some p' =>
      have heq : p = p' := by
        by_contra hne
        exact h ⟨⟨x, hx, of_decide_eq_true hkind⟩, hentries, hhalted, hstyle, hstyle', by simp [hp], by simp [hp'],
          by simpa [hp, hp'] using hne⟩
      simp [heq]

theorem publish_of_flash {n : Nat} {d : Direction} (h : flashOf f c = some d) :
    publish f n c = { shownCell f c with flash := n, flashDir := d } := by
  rw [publish, h]; rfl

theorem publish_of_no_flash {n : Nat} (h : flashOf f c = none) : publish f n c = shownCell f c := by
  rw [publish, h]; rfl

theorem Face.advance_eq (face : Face) (code : Byte) : face.advance code =
    match tableFind face.glyphs code.toNat with
    | some g => if g.image.length = g.expected then g.advance else face.defaultAdvance
    | none => face.defaultAdvance := by
  unfold Face.advance Face.usable
  cases tableFind face.glyphs code.toNat with
  | none => rfl
  | some g =>
    by_cases h : g.image.length = g.expected <;> simp [Glyph.complete, h]

end

/-- Settles O49: an offer and a take follow the branches of their definitions, and a completion concludes its refresh before
the next take (`execRefreshComplete_of_inFlight`); `flashOf` answers exactly under the conditions of R111. -/
theorem refreshesAreQueuedAndConcluded : Obligations.RefreshesAreQueuedAndConcluded := by
  intro s q withFormatter
  refine ⟨fun slot => ⟨State.offer_of_queued, fun it hs hfull hit => ⟨_, rfl, State.offer_of_full hs hfull hit⟩,
    fun hs hroom hbusy => ?_, fun hs hroom _ => ?_⟩, fun h => ?_, fun slot rest it code link r hf hq hit hc hr => ?_,
    fun h => ?_, fun f hf => ?_⟩
  · exact (State.offer_of_room hs hroom).trans (State.takeRefresh_of_busy hbusy)
  · exact congrArg Host.Outcome.next (State.offer_of_room hs hroom).symm
  · exact congrArg Host.Outcome.next (h.elim State.takeRefresh_of_busy State.takeRefresh_of_empty)
  · refine ⟨s.beginFormatting slot it code link,
      congrArg Host.Outcome.next (State.takeRefresh_of_quote hf hq hit hc), ?_⟩
    rw [State.beginFormatting_some hr]
    refine ⟨rfl, rfl, rfl, rfl, rfl, rfl, rfl, rfl, rfl, rfl, congrArg List.sum (List.map_congr_left fun e _ => ?_)⟩
    cases e with
    | glyph code => exact Face.advance_eq _ code
    | gap w => rfl
  · change execRefreshComplete s = _
    rw [execRefreshComplete, h]
  · intro ends
    have hends {u : State} (hu : s.concludeRefresh f = u) : ends u :=
      ⟨_, execRefreshComplete_of_inFlight hf hu, rfl⟩
    refine ⟨fun hd => hends (concludeRefresh_of_discarded hd), fun it c hd hit hc =>
      ⟨fun hw => hends (concludeRefresh_of_wide hd hit hc hw), fun code link r fields hquote hr hfields hw => ?_⟩⟩
    intro flashes shown
    have hpublished := concludeRefresh_of_fitting hd hit hc hw
    rw [State.flashLength_of_quote hquote hr] at hpublished
    refine ⟨fun hno => hends ?_, fun p p' hyes hp hp' => hends ?_⟩
    · rw [hpublished, publish_of_no_flash (flashOf_of_not_flashes hfields hno)]
      rfl
    · rw [hpublished, publish_of_flash (flashOf_of_flashes hfields hyes hp hp')]
      rfl

end Sys2Proof.Machine

namespace Sys2Proof.Machine

/-! ### The lowest-numbered free places (R117, R125) -/

section
variable {used : List Nat} {limit need : Nat}

/-- While enough places are free, exactly as many are taken as are needed. -/
theorem length_takeLowest (h : used.length + need ≤ limit) : (takeLowest used limit need).length = need := by
  obtain ⟨-, hle, -, -, hall⟩ := takeLowestFrom_spec used limit 0 need
  refine Nat.le_antisymm hle (Nat.not_lt.mp fun hlt => ?_)
  have hcover : List.range limit ⊆ takeLowest used limit need ++ used := fun j hj => by
    by_cases hu : j ∈ used
    · exact List.mem_append_right _ hu
    · exact List.mem_append_left _ (hall hlt j (Nat.zero_le j) (by simpa using hj) hu)
  have hcount := (List.subperm_of_subset List.nodup_range hcover).length_le
  rw [List.length_range, List.length_append] at hcount
  have : (takeLowest used limit need).length < need := hlt
  omega

/-- The places taken while enough are free: as many as needed, ascending, free and in range, none passed over. -/
theorem takeLowest_spec (h : used.length + need ≤ limit) :
    (takeLowest used limit need).length = need ∧ (takeLowest used limit need).Pairwise (· < ·) ∧
      (∀ k ∈ takeLowest used limit need, k < limit ∧ k ∉ used) ∧
      ∀ k ∈ takeLowest used limit need, ∀ j, j < k → j ∉ used → j ∈ takeLowest used limit need := by
  obtain ⟨hrising, -, hfree, hlowest, -⟩ := takeLowestFrom_spec used limit 0 need
  refine ⟨length_takeLowest h, hrising, fun k hk => ?_, fun k hk j => hlowest k hk j (Nat.zero_le j)⟩
  obtain ⟨-, hlt, hnot⟩ := hfree k hk
  exact ⟨by omega, hnot⟩

/-- Used and free places make up all places. -/
theorem length_free_add_length_used {free : List Nat} (hused : used.Nodup) (hlt : ∀ g ∈ used, g < limit)
    (hfree : free.Nodup) (h : ∀ g, g ∈ free ↔ g < limit ∧ g ∉ used) : free.length + used.length = limit := by
  have hdisjoint : (free ++ used).Nodup :=
    List.nodup_append'.mpr ⟨hfree, hused, fun g hg => ((h g).mp hg).2⟩
  have hperm : (free ++ used).Perm (List.range limit) :=
    (List.perm_ext_iff_of_nodup hdisjoint List.nodup_range).mpr fun g => by
      rw [List.mem_append, h g, List.mem_range]
      by_cases hg : g ∈ used
      · simp [hg, hlt g hg]
      · simp [hg]
  rw [← List.length_append, hperm.length_eq, List.length_range]

end

/-! ### Holders of texts and faces (R116, R123) -/

section
variable {s : State} {b : List Byte} {r : TextRec} {id : Nat}

theorem State.inView_iff : s.inView id r = true ↔ 0 < r.viewCount ∨
    ∃ sn, s.compositor.inFlight = some sn ∧ ∃ l ∈ sn.lanes, ∃ c ∈ l.cells, c.rendering = .text id := by
  simp [State.inView, Snapshot.drawsText, Option.any_eq_true, List.any_eq_true]

theorem State.faceBusy_iff {k : Fin 4} : s.faceBusy k = true ↔
    (∃ i, (s.lane i).state ≠ .off ∧ (s.lane i).state ≠ .idle ∧ (s.lane i).setup.face = k) ∨
      ∃ sn, s.compositor.inFlight = some sn ∧ ∃ l ∈ sn.lanes, l.face = k ∧ l.cells ≠ [] := by
  simp [State.faceBusy, Snapshot.drawsFace, Option.any_eq_true, List.any_eq_true, mem_allLanes, Lane.inUse_iff, and_assoc]

/-! ### Codes written over a run of positions (R118) -/

theorem length_overwrite {codes new : List Byte} {offset : Nat} (h : offset + new.length ≤ codes.length) :
    (overwrite codes offset new).length = codes.length := by
  simp only [overwrite, List.length_append, List.length_take, List.length_drop]
  omega

theorem getElem?_overwrite {codes new : List Byte} {offset : Nat} (h : offset + new.length ≤ codes.length) (p : Nat) :
    (overwrite codes offset new)[p]? =
      if offset ≤ p ∧ p < offset + new.length then new[p - offset]? else codes[p]? := by
  have htake : (codes.take offset).length = offset := List.length_take_of_le (by omega)
  have hwritten : (codes.take offset ++ new).length = offset + new.length := by rw [List.length_append, htake]
  rw [overwrite]
  rcases Nat.lt_or_ge p offset with hbefore | hfrom
  · rw [if_neg (by omega), List.getElem?_append_left (by omega), List.getElem?_append_left (by omega),
      List.getElem?_take_of_lt hbefore]
  rcases Nat.lt_or_ge p (offset + new.length) with hwithin | hbeyond
  · rw [if_pos ⟨hfrom, hwithin⟩, List.getElem?_append_left (by omega), List.getElem?_append_right (by omega), htake]
  · rw [if_neg (by omega), List.getElem?_append_right (by omega), hwritten, List.getElem?_drop]
    congr 1
    omega

/-! ### The text requests (R117 to R119) -/

/-- The record TEXT_CREATE forms (R117). -/
def createdText (b : List Byte) (s : State) : TextRec :=
  { blocks := takeLowest (usedBlocks s.texts) 256 ((field b 1 2 + 31) / 32)
    codes := List.replicate (field b 1 2) 0x20, refCount := 0, viewCount := 0 }

theorem textCreateRule_of_length (h : ¬ (field b 1 2 = 0 ∨ 1024 < field b 1 2)) : textCreateRule b s =
    if (s.text? (field b 0 1)).isSome then refuse s .exists
    else if 256 - (usedBlocks s.texts).length < (field b 1 2 + 31) / 32 then refuse s .poolFull
    else ({ s with texts := tablePut s.texts (field b 0 1) (createdText b s) }, okWith (be 1 ((field b 1 2 + 31) / 32))) :=
  if_neg h

theorem textWriteRule_of_none (h : s.text? (field b 0 1) = none) : textWriteRule b s = refuse s .noText := by
  rw [textWriteRule, h]

/-- The record after a TEXT_WRITE (R118). -/
def TextRec.written (b : List Byte) (r : TextRec) : TextRec :=
  { r with codes := overwrite r.codes (field b 1 2) (b.drop 3) }

theorem textWriteRule_of_some (h : s.text? (field b 0 1) = some r) : textWriteRule b s =
    if r.codes.length < field b 1 2 + (b.length - 3) then refuse s .range
    else if s.inView (field b 0 1) r then refuse s .inView
    else accept (s.updText (field b 0 1) (TextRec.written b)) := by
  rw [textWriteRule, h, ← List.length_drop]
  rfl

theorem textFreeRule_of_none (h : s.text? (field b 0 1) = none) : textFreeRule b s = refuse s .noText := by
  rw [textFreeRule, h]

theorem textFreeRule_of_some (h : s.text? (field b 0 1) = some r) : textFreeRule b s =
    if r.refCount > 0 ∨ s.inView (field b 0 1) r then refuse s .inUse
    else accept { s with texts := tableErase s.texts (field b 0 1) } := by
  rw [textFreeRule, h]

end

/-- Settles O50: the blocks taken are `takeLowest_spec`, the codes written are `getElem?_overwrite`, and each request writes
or removes one record of a rising table. -/
theorem textsAreCreatedWrittenAndFreed : Obligations.TextsAreCreatedWrittenAndFreed := by
  intro tag b s hs id inView
  have hview (r : TextRec) : s.inView id r = true ↔ inView r := State.inView_iff
  refine ⟨fun h hlen => ?_, fun h hlo hhi => ?_, fun h hlen => ?_⟩
  · have hl : lengthFits 0x60 b.length = true := by rw [hlen]; rfl
    intro length ends bad need
    refine ⟨fun hbad => answers_refused .badParam h hl (if_pos hbad), fun hgood htext => answers_refused .exists h hl ?_,
      fun hgood htext hfull => answers_refused .poolFull h hl ?_, fun hgood htext hroom => ?_⟩
    · rw [textCreateRule_of_length hgood, if_pos (Option.isSome_iff_ne_none.mpr htext)]
    · rw [textCreateRule_of_length hgood, htext]
      have : 256 < (usedBlocks s.texts).length + (length + 31) / 32 := hfull
      have : 1 ≤ (length + 31) / 32 := by omega
      exact (if_neg (by simp)).trans (if_pos (by omega))
    · refine ⟨(createdText b s).blocks, _, answers_data h hl ?_, fun j => tableFind_put hs.rising,
        takeLowest_spec hroom⟩
      rw [textCreateRule_of_length hgood, htext]
      exact (if_neg (by simp)).trans (if_neg (by omega))
  · have hl : lengthFits 0x61 b.length = true := by simp [lengthFits, bodyLengths, hlo, hhi]
    intro offset count ends
    refine ⟨fun htext => answers_refused .noText h hl (textWriteRule_of_none htext), fun r htext => ?_⟩
    have hrule := textWriteRule_of_some htext
    refine ⟨fun hlong => answers_refused .range h hl ?_, fun hfit hin => answers_refused .inView h hl ?_,
      fun hfit hout => ?_⟩
    · rw [hrule, if_pos hlong]
    · rw [hrule, if_neg (Nat.not_lt.mpr hfit), if_pos ((hview r).mpr hin)]
    · have hnew : offset + (b.drop 3).length ≤ r.codes.length := by rwa [List.length_drop]
      refine ⟨(r.written b).codes, tableUpdate s.texts id (TextRec.written b), answers_ok h hl ?_, fun j => ?_,
        length_overwrite hnew, fun p => (getElem?_overwrite hnew p).trans ?_⟩
      · rw [hrule, if_neg (Nat.not_lt.mpr hfit), if_neg (mt (hview r).mp hout)]
        rfl
      · rw [tableFind_update, show tableFind s.texts id = some r from htext]
        rfl
      · rw [List.length_drop, List.getElem?_drop]
  · have hl : lengthFits 0x62 b.length = true := by rw [hlen]; rfl
    refine ⟨fun htext => answers_refused .noText h hl (textFreeRule_of_none htext), fun r htext => ?_⟩
    have hrule := textFreeRule_of_some htext
    refine ⟨fun hin => answers_refused .inUse h hl ?_, fun href hout => ⟨_, answers_ok h hl ?_,
      fun j => tableFind_erase hs.rising⟩⟩
    · rw [hrule, if_pos (hin.imp_right (hview r).mpr)]
    · rw [hrule, if_neg (not_or.mpr ⟨Nat.not_lt.mpr (Nat.le_of_eq href), mt (hview r).mp hout⟩)]

end Sys2Proof.Machine

namespace Sys2Proof.Machine

/-! ### The granules held by the faces (R122) -/

section
variable {α : Type} {f : Face} {fs : Vector Face 4} {g code : Nat} {k : Fin 4}

theorem tableErase_sublist (t : Table α) (n : Nat) : (tableErase t n).Sublist t := by
  induction t with
  | nil => exact .slnil
  | cons p t ih =>
    rw [tableErase]
    split
    · exact List.sublist_cons_self ..
    · exact ih.cons_cons _

/-- The face once the glyph of a code is gone (R125). -/
def Face.without (f : Face) (code : Nat) : Face := { f with glyphs := tableErase f.glyphs code }

theorem Face.heldGranules_without : (f.without code).heldGranules.Sublist f.heldGranules :=
  (tableErase_sublist f.glyphs code).flatMap _

theorem Face.mem_heldGranules (hf : tableRising f.glyphs = true) :
    g ∈ f.heldGranules ↔ ∃ c r, tableFind f.glyphs c = some r ∧ g ∈ r.granules := by
  simp [Face.heldGranules, List.mem_flatMap, tableFind_iff_mem hf]

theorem Face.tableRising_without (hf : tableRising f.glyphs = true) : tableRising (f.without code).glyphs = true :=
  tableRising_erase hf

theorem Face.tableFind_without (hf : tableRising f.glyphs = true) (c : Nat) :
    tableFind (f.without code).glyphs c = if c = code then none else tableFind f.glyphs c := tableFind_erase hf

/-- The granules of all faces, face by face. -/
theorem heldGranules_eq (fs : Vector Face 4) :
    heldGranules fs = (List.finRange 4).flatMap fun k => fs[k].heldGranules := by
  have hfaces : fs.toList = (List.finRange 4).map fun k => fs[k] := List.ext_getElem (by simp) (by simp)
  rw [heldGranules, hfaces, List.flatMap_map]

theorem mem_heldGranules : g ∈ heldGranules fs ↔ ∃ j : Fin 4, g ∈ fs[j].heldGranules := by
  simp [heldGranules_eq, List.mem_flatMap]

theorem getElem_set_face (fs : Vector Face 4) (k j : Fin 4) (f : Face) :
    (fs.set k f)[j] = if j = k then f else fs[j] := by
  by_cases h : j = k
  · subst h; simp
  · have : k.val ≠ j.val := fun hv => h (Fin.ext hv.symm)
    simp [h, Vector.getElem_set_ne, this]

/-- A face that holds a part of what it held leaves the store a part of what it held. -/
theorem heldGranules_set_sublist (h : f.heldGranules.Sublist fs[k].heldGranules) :
    (heldGranules (fs.set k f)).Sublist (heldGranules fs) := by
  rw [heldGranules_eq, heldGranules_eq]
  refine List.Sublist.flatMap_right _ fun j _ => ?_
  rw [getElem_set_face]
  split
  · next hj => exact hj ▸ h
  · exact List.Sublist.refl _

/-- What stays held once the glyph of a code is gone: the granules of every other glyph. -/
theorem mem_heldGranules_without (hf : ∀ j : Fin 4, tableRising fs[j].glyphs = true) :
    g ∈ heldGranules (fs.set k (fs[k].without code)) ↔
      ∃ (j : Fin 4) (c : Nat) (r : Glyph), tableFind fs[j].glyphs c = some r ∧ (j ≠ k ∨ c ≠ code) ∧ g ∈ r.granules := by
  rw [mem_heldGranules]
  refine exists_congr fun j => ?_
  rw [getElem_set_face]
  by_cases hj : j = k
  · subst hj
    rw [if_pos rfl, Face.mem_heldGranules (Face.tableRising_without (hf j))]
    simp only [Face.tableFind_without (hf j), Option.ite_none_left_eq_some, ne_eq, not_true_eq_false, false_or,
      and_left_comm, and_assoc]
  · rw [if_neg hj, Face.mem_heldGranules (hf j)]
    simp only [ne_eq, hj, not_false_eq_true, true_or, true_and]

end

/-- The command of a request in hand that its rule answers with a result alone, whatever else it changed. -/
theorem answers_result {s u : State} {k t : Byte} {b : List Byte} {rule : List Byte → State → State × Reply} (r : Result)
    (h : s.holds k t b) (hl : lengthFits k b.length = true) (hr : rule b s = (u, bare r)) :
    (Host.Outcome.next (serve k t b rule s) : Answer) = .next (u.answered k t r.code []) := by
  rw [serve_result h hl hr]

/-! ### FACE_SETUP (R124) -/

section
variable {s : State} {b data : List Byte} {k : Fin 4} {code advance offset : Nat}

theorem faceSetupRule_of_face (hk : field b 0 1 = k.val) : faceSetupRule b s =
    if field b 1 1 < 16 ∨ 128 < field b 1 1 ∨ field b 2 1 = 0 ∨ 63 < field b 2 1 then refuse s .badParam
    else if s.faceBusy k then refuse s .faceBusy
    else if ∃ i, (s.lane i).state ≠ .off ∧ (s.lane i).setup.face = k ∧ (s.lane i).setup.bandHeight < field b 1 1 then
      refuse s .badParam
    else accept (s.setFace k { height := field b 1 1, defaultAdvance := field b 2 1, glyphs := [] }) := by
  have hlow : (allLanes.any fun i => decide ((s.lane i).state ≠ .off) && decide ((s.lane i).setup.face = k) &&
      decide ((s.lane i).setup.bandHeight < field b 1 1)) = true ↔
      ∃ i, (s.lane i).state ≠ .off ∧ (s.lane i).setup.face = k ∧ (s.lane i).setup.bandHeight < field b 1 1 := by
    simp [List.any_eq_true, mem_allLanes, and_assoc]
  simp only [faceSetupRule, small?_eq hk, hlow, Nat.lt_one_iff, gt_iff_lt]

/-! ### GLYPH_LOAD (R125, R126) -/

theorem glyphLoadRule_of_face (hk : field b 0 1 = k.val) (hbusy : ¬ s.faceBusy k = true) : glyphLoadRule b s =
    if field b 3 2 = 0 then glyphStart s k (field b 1 1) (field b 2 1) (b.drop 5)
    else glyphContinue s k (field b 1 1) (field b 3 2) (b.drop 5) := by
  rw [glyphLoadRule, small?_eq hk]
  exact if_neg hbusy

theorem State.setFace_setFace (f f' : Face) : (s.setFace k f).setFace k f' = s.setFace k f' := by
  simp [State.setFace]

/-- The granules held once the old glyph of the code is gone (R125). -/
def State.heldWithout (s : State) (k : Fin 4) (code : Nat) : List Nat :=
  heldGranules (s.faces.set k (s.faces[k].without code))

/-- The glyph that a load at offset 0 forms (R125). -/
def startedGlyph (s : State) (k : Fin 4) (code advance : Nat) (data : List Byte) : Glyph :=
  { advance := advance, expected := expectedBytes s.faces[k].height advance
    granules := takeLowest (s.heldWithout k code) 8192 ((expectedBytes s.faces[k].height advance + 63) / 64)
    image := data }

/-- A load at offset 0 that passes its checks: the old glyph goes, and the new one is formed if there is room (R125). -/
theorem glyphStart_of_checked (hadvance : ¬ (advance = 0 ∨ 63 < advance))
    (hfit : data.length ≤ expectedBytes s.faces[k].height advance) : glyphStart s k code advance data =
    if 8192 - (s.heldWithout k code).length < (expectedBytes s.faces[k].height advance + 63) / 64 then
      (s.setFace k (s.faces[k].without code), bare .noSpace)
    else
      (s.setFace k { s.faces[k] with
          glyphs := tablePut (s.faces[k].without code).glyphs code (startedGlyph s k code advance data) },
        okWith (be 2 data.length ++ be 2 (expectedBytes s.faces[k].height advance))) := by
  refine (if_neg hadvance).trans ((if_neg (Nat.not_lt.mpr hfit)).trans ?_)
  simp only [State.setFace_setFace]
  rfl

theorem free_without_iff (hs : FacesSound s.faces) (g : Nat) : g < 8192 ∧ g ∉ s.heldWithout k code ↔
    g < 8192 ∧ ∀ (j : Fin 4) c r, tableFind s.faces[j].glyphs c = some r → (j ≠ k ∨ c ≠ code) → g ∉ r.granules := by
  simp only [State.heldWithout, mem_heldGranules_without hs.rising, not_exists, not_and]

/-- The granules free for a load at offset 0 are those that no other glyph holds, however they are listed. -/
theorem length_free_without (hs : FacesSound s.faces) {free : List Nat} (hfree : free.Nodup)
    (h : ∀ g, g ∈ free ↔ g < 8192 ∧ g ∉ s.heldWithout k code) : free.length + (s.heldWithout k code).length = 8192 := by
  have hless : (s.heldWithout k code).Sublist (heldGranules s.faces) := heldGranules_set_sublist Face.heldGranules_without
  exact length_free_add_length_used (hless.nodup hs.once) (fun g hg => hs.granules g (hless.subset hg)) hfree h

theorem glyphContinue_of_none (h : tableFind s.faces[k].glyphs code = none) :
    glyphContinue s k code offset data = refuse s .sequence := by
  simp only [glyphContinue, h]

theorem glyphContinue_of_some {g : Glyph} (h : tableFind s.faces[k].glyphs code = some g) :
    glyphContinue s k code offset data =
      if offset ≠ g.image.length then refuse s .sequence
      else if g.expected < offset + data.length then refuse s .range
      else (s.setFace k { s.faces[k] with
          glyphs := tablePut s.faces[k].glyphs code { g with image := g.image ++ data } },
        okWith (be 2 (g.image ++ data).length ++ be 2 g.expected)) := by
  simp only [glyphContinue, h]
  rfl

end

/-- Settles O51: the granules that a load finds free are those of `mem_heldGranules_without`, counted by
`length_free_add_length_used` and taken by `takeLowest_spec`. -/
theorem facesAndGlyphsAreLoaded : Obligations.FacesAndGlyphsAreLoaded := by
  intro tag b s busy
  have hbusy (k : Fin 4) : s.faceBusy k = true ↔ busy k := State.faceBusy_iff
  refine ⟨fun h hlen => ?_, fun h hlo hhi => ?_, fun h => ?_⟩
  · have hl : lengthFits 0x63 b.length = true := by rw [hlen]; rfl
    intro height advance ends bad
    refine ⟨fun hface => answers_refused .badParam h hl (by rw [faceSetupRule, small?_none hface]), fun k hk => ?_⟩
    have hrule := faceSetupRule_of_face (s := s) hk
    refine ⟨fun hbad => answers_refused .badParam h hl ?_, fun hgood hin => answers_refused .faceBusy h hl ?_,
      fun hgood hout hlow => answers_refused .badParam h hl ?_, fun hgood hout hhigh => answers_ok h hl ?_⟩
    · rw [hrule, if_pos hbad]
    · rw [hrule, if_neg hgood, if_pos ((hbusy k).mpr hin)]
    · rw [hrule, if_neg hgood, if_neg (mt (hbusy k).mp hout), if_pos hlow]
    · rw [hrule, if_neg hgood, if_neg (mt (hbusy k).mp hout), if_neg hhigh]
      rfl
  · have hl : lengthFits 0x64 b.length = true := by simp [lengthFits, bodyLengths, hlo, hhi]
    intro code advance offset data ends
    refine ⟨fun hface => answers_refused .badParam h hl (by rw [glyphLoadRule, small?_none hface]),
      fun k hk hrising => ?_⟩
    intro expected loaded
    refine ⟨fun hin => answers_refused .faceBusy h hl ?_, fun hout h0 => ?_, fun hout h0 => ?_⟩
    · rw [glyphLoadRule, small?_eq hk]
      exact if_pos ((hbusy k).mpr hin)
    · have hrule : glyphLoadRule b s = glyphStart s k code advance data := by
        rw [glyphLoadRule_of_face hk (mt (hbusy k).mp hout), if_pos h0]
      intro bad free
      refine ⟨fun hbad => answers_refused .badParam h hl (hrule.trans (if_pos hbad)),
        fun hgood hlong => answers_refused .range h hl (hrule.trans ((if_neg hgood).trans (if_pos hlong))),
        fun hgood hfit hs free' hnodup hmem => ?_⟩
      have hstart := hrule.trans (glyphStart_of_checked (code := code) hgood hfit)
      rw [show expectedBytes s.faces[k].height advance = expected from rfl] at hstart
      have hfree (g : Nat) : g < 8192 ∧ g ∉ s.heldWithout k code ↔ free g := free_without_iff hs g
      have hcount := length_free_without hs hnodup fun g => (hmem g).trans (hfree g).symm
      refine ⟨fun hfull => ⟨(s.faces[k].without code).glyphs, ?_, Face.tableFind_without hrising⟩, fun hroom => ?_⟩
      · exact answers_result .noSpace h hl (hstart.trans (if_pos (by omega)))
      · obtain ⟨hlength, hascending, hin, hlowest⟩ :=
          takeLowest_spec (used := s.heldWithout k code) (limit := 8192) (need := (expected + 63) / 64) (by omega)
        refine ⟨(startedGlyph s k code advance data).granules,
          ⟨tablePut (s.faces[k].without code).glyphs code (startedGlyph s k code advance data),
            answers_data h hl (hstart.trans (if_neg (by omega))), fun c => ?_⟩, hlength, hascending,
          fun g hg => (hfree g).mp (hin g hg), fun g hg j hj hfree' => hlowest g hg j hj ((hfree j).mpr hfree').2⟩
        rw [tableFind_put (Face.tableRising_without hrising), Face.tableFind_without hrising]
        split <;> rfl
    · have hrule : glyphLoadRule b s = glyphContinue s k code offset data := by
        rw [glyphLoadRule_of_face hk (mt (hbusy k).mp hout), if_neg h0]
      refine ⟨fun hnone => answers_refused .sequence h hl (hrule.trans (glyphContinue_of_none hnone)), fun g hg => ?_⟩
      have hnext := hrule.trans (glyphContinue_of_some hg)
      refine ⟨fun hoff => answers_refused .sequence h hl (hnext.trans (if_pos hoff)), fun hoff hlong =>
        answers_refused .range h hl (hnext.trans ((if_neg (not_not.mpr hoff)).trans (if_pos hlong))), fun hoff hfit =>
        ⟨_, answers_data h hl (hnext.trans ((if_neg (not_not.mpr hoff)).trans ((if_neg (Nat.not_lt.mpr hfit)).trans ?_))),
          fun c => tableFind_put hrising⟩⟩
      rw [hoff, ← List.length_append]
      rfl
  · refine ⟨faceReport s, answers_data h rfl rfl, fun k => ?_⟩
    by_cases hb : s.faceBusy k = true
    · exact ⟨1, .inl ⟨rfl, (hbusy k).mp hb⟩, by rw [faceReport, boolByte_eq, if_pos hb]; rfl⟩
    · exact ⟨0, .inr ⟨rfl, mt (hbusy k).mpr hb⟩, by rw [faceReport, boolByte_eq, if_neg hb]; rfl⟩

end Sys2Proof.Machine

namespace Sys2Proof.Machine

/-! ### TIMING_SETUP (R135) -/

section
variable {c : FrameClock} {source : ClockSource} {p r : Nat} {s : State} {b : List Byte} {order : FrameOrder}

theorem FrameClock.setUp_free (c : FrameClock) (p r : Nat) : c.setUp .free p r =
    { c with source := .free, period := p, relock := r, lock := .free, consistent := 0, previousPulse := none } := rfl

theorem FrameClock.setUp_seek (h : c.lock = .free ∨ p ≠ c.period) : c.setUp .reference p r =
    { c with source := .reference, period := p, relock := r, lock := .seek, consistent := 0, previousPulse := none } :=
  if_pos h

theorem FrameClock.setUp_kept (hl : c.lock ≠ .free) (hp : p = c.period) : c.setUp .reference p r =
    { c with source := .reference, relock := r } := by
  subst hp
  exact if_neg (by simp [hl])

/-- The set-up leaves the tick and the timing origin, and takes the period. -/
theorem FrameClock.setUp_times (c : FrameClock) (source : ClockSource) (p r : Nat) :
    (c.setUp source p r).now = c.now ∧ (c.setUp source p r).origin = c.origin ∧ (c.setUp source p r).period = p ∧
      (c.setUp source p r).counter = c.counter := by
  unfold FrameClock.setUp
  cases source with
  | free => exact ⟨rfl, rfl, rfl, rfl⟩
  | reference => dsimp only; split <;> exact ⟨rfl, rfl, rfl, rfl⟩

/-- A new period leaves no clock LOCKED. -/
theorem FrameClock.setUp_unlocks (h : p ≠ c.period) : (c.setUp source p r).lock ≠ .locked := by
  cases source with
  | free => simp [FrameClock.setUp_free]
  | reference => simp [FrameClock.setUp_seek (.inr h)]

/-- When the set-up makes a frame start at once (R135, R131). -/
theorem FrameClock.startOverdue_iff : c.startOverdue (c.setUp source p r) = true ↔
    (p ≠ c.period ∨ c.lock = .locked ∧ (c.setUp source p r).lock ≠ .locked) ∧ c.origin + p < c.now := by
  obtain ⟨hnow, horigin, hperiod, -⟩ := c.setUp_times source p r
  simp only [FrameClock.startOverdue, FrameClock.periodDue, hnow, horigin, hperiod, Bool.and_eq_true, Bool.or_eq_true,
    decide_eq_true_eq]
  constructor
  · rintro ⟨⟨h | h, hlock⟩, hlate⟩
    · exact ⟨.inl h, hlate⟩
    · exact ⟨.inr ⟨h, hlock⟩, hlate⟩
  · rintro ⟨h | ⟨h, hlock⟩, hlate⟩
    · exact ⟨⟨.inl h, setUp_unlocks h⟩, hlate⟩
    · exact ⟨⟨.inr h, hlock⟩, hlate⟩

theorem clockSource?_none {n : Nat} (h : 1 < n) : clockSource? n = none := by
  obtain ⟨m, rfl⟩ := Nat.exists_eq_add_of_lt h
  rw [show 1 + m + 1 = m + 2 by omega]
  rfl

theorem clockSource?_some {n : Nat} (h : n ≤ 1) : clockSource? n = some (if n = 0 then .free else .reference) := by
  obtain rfl | rfl : n = 0 ∨ n = 1 := by omega
  all_goals rfl

/-- A TIMING_SETUP body that R135 refuses. -/
def TimingBad (b : List Byte) : Prop :=
  1 < field b 0 1 ∨ field b 1 4 < 270000 ∨ 2700000 < field b 1 4 ∨ field b 5 1 = 0

theorem timingSetupRule_of_bad (h : TimingBad b) : timingSetupRule order b s = refuse s .badParam := by
  unfold timingSetupRule
  by_cases hs : 1 < field b 0 1
  · rw [clockSource?_none hs]
  · rw [clockSource?_some (Nat.le_of_not_lt hs)]
    exact if_pos (h.resolve_left hs)

/-- TIMING_SETUP taken: the clock set up, and the frame start it makes when one is overdue. -/
theorem timingSetupRule_of_good (h : ¬ TimingBad b) (hs : clockSource? (field b 0 1) = some source) :
    timingSetupRule order b s = accept
      (if s.clock.startOverdue (s.clock.setUp source (field b 1 4) (field b 5 1)) = true then
        State.frameStart { s with clock := s.clock.setUp source (field b 1 4) (field b 5 1) } order s.clock.now
      else { s with clock := s.clock.setUp source (field b 1 4) (field b 5 1) }) := by
  have hrange : ¬ (field b 1 4 < 270000 ∨ field b 1 4 > 2700000 ∨ field b 5 1 = 0) := fun hr => h (.inr hr)
  unfold timingSetupRule
  simp only [hs, if_neg hrange, (s.clock.setUp_times source (field b 1 4) (field b 5 1)).1]

end

/-! ### TIMING_QUERY and GPI_SETUP (R136, R140) -/

section
variable {s : State} {b : List Byte}

theorem toList_gpi (v : Vector Gpi 4) : v.toList = (List.finRange 4).map fun n : GpiId => v[n] :=
  List.ext_getElem (by simp) fun _ _ _ => by simp

theorem timingReport_eq (s : State) : timingReport s =
    be 1 s.clock.source.code ++ be 1 s.clock.lock.code ++ be 4 s.clock.period ++ be 1 s.clock.relock ++
      be 1 s.clock.consistent ++ be 4 s.clock.counter.toNat ++
      be 1 (((List.finRange 4).map fun n : GpiId => if s.gpi[n].counted then 2 ^ n.val else 0).sum) ++
      (List.finRange 4).flatMap fun n : GpiId => be 1 s.gpi[n].edge.code := by
  have hlevels : gpiLevels s.gpi =
      ((List.finRange 4).map fun n : GpiId => if s.gpi[n].counted then 2 ^ n.val else 0).sum := by
    simp [gpiLevels, List.finRange_succ, Nat.add_assoc]
  rw [timingReport, toList_gpi, List.flatMap_map, hlevels]

theorem edgeKind?_none {n : Nat} (h : 3 < n) : edgeKind? n = none := by
  obtain ⟨m, rfl⟩ := Nat.exists_eq_add_of_lt h
  rw [show 3 + m + 1 = m + 4 by omega]
  rfl

theorem edgeKind?_code (kind : EdgeKind) : edgeKind? kind.code = some kind := by cases kind <;> rfl

theorem gpiSetupRule_of_bad (h : 3 < field b 0 1 ∨ 3 < field b 1 1) : gpiSetupRule b s = refuse s .badParam := by
  unfold gpiSetupRule
  rcases h with h | h
  · rw [small?_none h]
  · rw [edgeKind?_none h]
    cases small? 4 (field b 0 1) <;> rfl

theorem gpiSetupRule_of_good {n : GpiId} {kind : EdgeKind} (hn : field b 0 1 = n.val) (hk : kind.code = field b 1 1) :
    gpiSetupRule b s = accept (s.setGpi n { s.gpi[n] with edge := kind }) := by
  rw [gpiSetupRule, small?_eq hn, ← hk, edgeKind?_code]

end

/-- Settles O53: the clock TIMING_SETUP leaves is `FrameClock.setUp`, a frame start made at once is one that
`FrameClock.startOverdue_iff` finds overdue. -/
theorem timingAndInputsAreProgrammed : Obligations.TimingAndInputsAreProgrammed := by
  intro e order tag b s
  refine ⟨fun h hlen => ?_, fun h => answers_data h rfl (congrArg (fun d => (s, okWith d)) (timingReport_eq s)),
    fun h hlen => ?_⟩
  · have hl : lengthFits 0x70 b.length = true := by rw [hlen]; rfl
    have he : (s.elapse e).holds 0x70 tag b := h
    refine ⟨fun hbad => answers_refused .badParam he hl (timingSetupRule_of_bad hbad), fun hgood => ?_⟩
    have hsource : field b 0 1 ≤ 1 := Nat.le_of_not_lt fun hs => hgood (.inl hs)
    have hrule := timingSetupRule_of_good (order := order) (s := s.elapse e) hgood (clockSource?_some hsource)
    refine ⟨(s.elapse e).clock.setUp (if field b 0 1 = 0 then .free else .reference) (field b 1 4) (field b 5 1),
      fun h0 => ?_, fun h1 hnew => ?_, fun h1 hlock hkept => ?_, fun hnew hlate => ?_, fun hnot => ?_⟩
    · rw [if_pos h0, FrameClock.setUp_free]
    · rw [if_neg (by omega), FrameClock.setUp_seek hnew]
    · rw [if_neg (by omega), FrameClock.setUp_kept hlock hkept]
    · rw [if_pos (FrameClock.startOverdue_iff.mpr ⟨hnew, hlate⟩)] at hrule
      exact answers_ok he hl hrule
    · rw [if_neg fun hover => ?_] at hrule
      · exact answers_ok he hl hrule
      · obtain ⟨hnew, hlate⟩ := FrameClock.startOverdue_iff.mp hover
        rcases hnot with ⟨hperiod, hlock⟩ | hnot
        · rcases hnew with hnew | ⟨hold, hleft⟩
          · exact hnew hperiod
          · exact hlock.elim (fun hl => hl hold) hleft
        · omega
  · have hl : lengthFits 0x72 b.length = true := by rw [hlen]; rfl
    exact ⟨fun hbad => answers_refused .badParam h hl (gpiSetupRule_of_bad hbad),
      fun n kind hn hk => answers_ok h hl (gpiSetupRule_of_good hn hk)⟩

end Sys2Proof.Machine

namespace Sys2Proof.Machine

/-! ### Edges of a GPI input (R71, R139) -/

section
variable {s : State} {n : GpiId} {late : LaneSet} {i : LaneId}

theorem EdgeKind.selects_iff (k : EdgeKind) (level : Bool) : k.selects level = true ↔
    k = .both ∨ k = .rise ∧ level = true ∨ k = .fall ∧ level = false := by
  cases k <;> simp [EdgeKind.selects]

theorem Lane.awaitsGpi_iff (l : Lane) (n : GpiId) : l.awaitsGpi n = true ↔
    l.state = .armed ∧ ∃ a, l.arm = some a ∧ a.condition = .gpi n := by
  unfold Lane.awaitsGpi
  split
  · rename_i a hs ha
    simp [hs, ha]
  · rename_i h
    simp only [Bool.false_eq_true, false_iff, not_and, not_exists]
    exact fun hs a ha => absurd ha (h a hs)

/-- A cause that is late to reach a lane leaves it noted as met (R74). -/
theorem meetCondition_of_late {a : Arm} (h : late.getLsbD i.val = true) (ha : (s.lane i).arm = some a) :
    s.meetCondition late i = s.setLane i { s.lane i with arm := some { a with met := true } } := by
  rw [State.meetCondition, if_pos h, State.updLane_eq, ha, Option.map_some]

/-- A cause that reaches an ARMED lane starts it (R74). -/
theorem meetCondition_of_prompt {a : Arm} (h : late.getLsbD i.val = false) (hs : (s.lane i).state = .armed)
    (ha : (s.lane i).arm = some a) : s.meetCondition late i =
      (s.setLane i ((s.lane i).begun a.returns)).raise ((s.lane i).startFactor i) := by
  rw [State.meetCondition, if_neg (ne_true_of_eq_false h), State.startArmed_eq hs ha]

/-- What an edge does: GPIn is raised, each lane armed on the input meets its condition, and nothing else changes. -/
theorem gpiEdge_spec (s : State) (late : LaneSet) (n : GpiId) :
    s.gpiEdge late n = { s with lanes := (s.gpiEdge late n).lanes, events := (s.gpiEdge late n).events } ∧
    (s.gpiEdge late n).events.mask = s.events.mask ∧
    (∀ g : GroupId, (∀ k, g ≠ laneGroup k) →
      (s.gpiEdge late n).events.groups[g] = (s.raise (.gpiEdge n)).events.groups[g]) ∧
    ∀ k,
      ((s.lane k).awaitsGpi n = true → (s.gpiEdge late n).lane k = (s.meetCondition late k).lane k ∧
        (s.gpiEdge late n).events.groups[laneGroup k] = (s.meetCondition late k).events.groups[laneGroup k]) ∧
      (¬ (s.lane k).awaitsGpi n = true → (s.gpiEdge late n).lane k = s.lane k ∧
        (s.gpiEdge late n).events.groups[laneGroup k] = s.events.groups[laneGroup k]) := by
  obtain ⟨hrest, hgroups, hlanes⟩ := foldl_lanes (LaneAlone.meetCondition late) (meetCondition_local late)
    (ks := allLanes.filter fun i => (s.lane i).awaitsGpi n) (List.Nodup.filter _ (by decide)) (s.raise (.gpiEdge n))
  have hraised (k : LaneId) : (s.raise (.gpiEdge n)).events.groups[laneGroup k] = s.events.groups[laneGroup k] :=
    (EventUnit.record_groups _ _ _).trans (if_neg (laneGroup_inner k).1)
  refine ⟨hrest, (LaneWork.foldl (LaneWork.meetCondition late) _ _).mask, hgroups, fun k => ?_⟩
  obtain ⟨hin, hout⟩ := hlanes k
  obtain ⟨hlane, hgroup⟩ := meetCondition_local late (s.raise (.gpiEdge n)) s k rfl (hraised k)
  refine ⟨fun h => ?_, fun h => ?_⟩
  · obtain ⟨h1, h2⟩ := hin (List.mem_filter.mpr ⟨mem_allLanes k, h⟩)
    exact ⟨h1.trans hlane, h2.trans hgroup⟩
  · obtain ⟨h1, h2⟩ := hout fun hk => h (List.mem_filter.mp hk).2
    exact ⟨h1, h2.trans (hraised k)⟩

/-! ### Counted changes and debounced levels (R138) -/

/-- The state whose counted level has taken the level of an input. -/
def State.counts (s : State) (n : GpiId) : State :=
  s.setGpi n { s.gpi[n] with counted := s.gpi[n].level, debounce := none }

theorem countedChange_of_edge (h : s.gpi[n].edge.selects s.gpi[n].level = true) :
    s.countedChange late n = (s.counts n).gpiEdge late n := if_pos h

theorem countedChange_of_no_edge (h : ¬ s.gpi[n].edge.selects s.gpi[n].level = true) :
    s.countedChange late n = s.counts n := if_neg h

/-- A counted change touches the input, lanes and factors alone. -/
theorem countedChange_rest (s : State) (late : LaneSet) (n : GpiId) : s.countedChange late n =
    { s.counts n with lanes := (s.countedChange late n).lanes, events := (s.countedChange late n).events } := by
  by_cases h : s.gpi[n].edge.selects s.gpi[n].level = true
  · rw [countedChange_of_edge h]; exact (gpiEdge_spec (s.counts n) late n).1
  · rw [countedChange_of_no_edge h]

theorem countedChange_debounce (s : State) (late : LaneSet) (n : GpiId) :
    (s.countedChange late n).gpi[n].debounce = none := by
  rw [countedChange_rest]; simp [State.counts]

/-- A change of level that no overdue timer precedes. -/
theorem levelChange_of_timely (hr : s.inReset = false) (h : ∀ t, s.gpi[n].debounce = some t → s.clock.now < t + 27000) :
    s.levelChange n = s.setGpi n { s.gpi[n] with
      level := !s.gpi[n].level
      debounce := if (!s.gpi[n].level) = s.gpi[n].counted then none else some s.clock.now } := by
  have hdue : ¬ s.gpi[n].due.any (fun t => decide (t ≤ s.clock.now)) = true := by
    unfold Gpi.due
    cases hd : s.gpi[n].debounce with
    | none => simp
    | some t => simpa [Config.debounceTicks] using h t hd
  unfold State.levelChange
  simp only [hr, Bool.false_eq_true, if_false, if_neg hdue]

/-- An input that leaves its counted level starts its timer. -/
theorem levelChange_away (hr : s.inReset = false) (hd : s.gpi[n].debounce = none)
    (heq : s.gpi[n].level = s.gpi[n].counted) : s.levelChange n =
      s.setGpi n { s.gpi[n] with level := !s.gpi[n].level, debounce := some s.clock.now } := by
  have hne : ¬ (!s.gpi[n].level) = s.gpi[n].counted := fun h => Bool.not_ne_self _ (h.trans heq.symm)
  rw [levelChange_of_timely hr fun t ht => (by cases hd.symm.trans ht), if_neg hne]

/-- An input that returns to its counted level in time clears its timer. -/
theorem levelChange_back {t : Nat} (hr : s.inReset = false) (hd : s.gpi[n].debounce = some t)
    (hne : s.gpi[n].level ≠ s.gpi[n].counted) (h : s.clock.now < t + 27000) : s.levelChange n =
      s.setGpi n { s.gpi[n] with level := !s.gpi[n].level, debounce := none } := by
  have htimely (t' : Nat) (ht : s.gpi[n].debounce = some t') : s.clock.now < t' + 27000 := by
    cases hd.symm.trans ht
    exact h
  rw [levelChange_of_timely hr htimely, if_pos (Bool.not_eq.mpr hne)]

/-- A change of level that finds the debounce time complete comes after the counted change. -/
theorem levelChange_of_overdue {t : Nat} (hr : s.inReset = false) (hd : s.gpi[n].debounce = some t)
    (h : t + 27000 ≤ s.clock.now) : s.levelChange n = (s.countedChange 0 n).levelChange n := by
  have hdue : s.gpi[n].due.any (fun t => decide (t ≤ s.clock.now)) = true := by
    rw [Gpi.due, hd]
    simpa [Config.debounceTicks] using h
  have hreset : (s.countedChange 0 n).inReset = false := by rw [countedChange_rest]; exact hr
  have hnow : (s.countedChange 0 n).clock = s.clock := by rw [countedChange_rest]; rfl
  have htimely (t' : Nat) (ht : (s.countedChange 0 n).gpi[n].debounce = some t') :
      (s.countedChange 0 n).clock.now < t' + 27000 := by
    rw [countedChange_debounce] at ht
    cases ht
  rw [levelChange_of_timely hreset htimely, hnow]
  unfold State.levelChange
  simp only [hr, Bool.false_eq_true, if_false, if_pos hdue]

theorem execGpiDebounceExpiry_of_running {t : Nat} (h : s.gpi[n].debounce = some t) : execGpiDebounceExpiry n late s =
    .next ((s.elapse (if s.clock.now < t + 27000 then t + 27000 - s.clock.now else 0)).countedChange late n) := by
  have hmax : max s.clock.now (t + 27000) =
      s.clock.now + if s.clock.now < t + 27000 then t + 27000 - s.clock.now else 0 := by
    split <;> omega
  rw [execGpiDebounceExpiry, Gpi.due, h, State.elapse, ← hmax]
  rfl

end

/-- Settles O54: the counted change is `countedChange_of_edge` or `countedChange_of_no_edge`, what the edge does to each
lane is `gpiEdge_spec`, and a level change finds its timer running or overdue. -/
theorem gpiChangesAreDebounced : Obligations.GpiChangesAreDebounced := by
  intro e n s
  refine ⟨fun hr hd heq => congrArg Host.Outcome.next (levelChange_away (s := s.elapse e) hr hd heq),
    fun t hr hd hne hnow => congrArg Host.Outcome.next (levelChange_back (s := s.elapse e) hr hd hne hnow),
    fun t hr hd hnow => ?_, fun hd late => ?_, fun t hd => ?_⟩
  · have hexp := execGpiDebounceExpiry_of_running (s := s.elapse e) (late := 0) hd
    rw [if_neg (show ¬ (s.elapse e).clock.now < t + 27000 from Nat.not_lt.mpr hnow)] at hexp
    exact ⟨_, hexp, congrArg Host.Outcome.next (levelChange_of_overdue (s := s.elapse e) hr hd hnow)⟩
  · show execGpiDebounceExpiry n late s = _
    rw [execGpiDebounceExpiry, Gpi.due, hd]
    rfl
  · intro due u selected
    have hexp (late : LaneSet) : exec (.gpiDebounceExpiry n late) s = .next ((s.elapse due).countedChange late n) :=
      execGpiDebounceExpiry_of_running hd
    have hselect : s.gpi[n].edge.selects s.gpi[n].level = true ↔ selected := EdgeKind.selects_iff _ _
    refine ⟨fun late hnot => (hexp late).trans (congrArg Host.Outcome.next
      (countedChange_of_no_edge (s := s.elapse due) (mt hselect.mp hnot))), fun late hsel =>
      ⟨u.gpiEdge late n, (hexp late).trans (congrArg Host.Outcome.next
        (countedChange_of_edge (s := s.elapse due) (hselect.mpr hsel))), ?_⟩⟩
    obtain ⟨hrest, hmask, hgroups, hlanes⟩ := gpiEdge_spec u late n
    refine ⟨hrest, hmask, hgroups, fun i => ?_⟩
    intro l drained
    obtain ⟨hin, hout⟩ := hlanes i
    refine ⟨fun returns m hs ha => ?_, fun hno => hout fun haw => ?_⟩
    · obtain ⟨hlane, hgroup⟩ := hin ((Lane.awaitsGpi_iff _ n).mpr ⟨hs, _, ha, rfl⟩)
      refine ⟨fun hlate => ?_, fun hprompt hdr => ?_, fun hprompt hdr => ?_⟩
      · rw [meetCondition_of_late (s := u) hlate ha] at hlane hgroup
        exact ⟨hlane.trans (State.lane_setLane_same _ _ _), hgroup⟩
      · rw [meetCondition_of_prompt (s := u) hprompt hs ha] at hlane hgroup
        have hb : l.begun returns = _ := if_pos hdr
        have hf : l.startFactor i = _ := if_pos hdr
        rw [show (u.lane i).startFactor i = _ from hf] at hgroup
        refine ⟨hlane.trans ((State.lane_setLane_same _ _ _).trans hb), hgroup.trans (State.raise_group _ rfl)⟩
      · rw [meetCondition_of_prompt (s := u) hprompt hs ha] at hlane hgroup
        have hb : l.begun returns = _ := if_neg hdr
        have hf : l.startFactor i = _ := if_neg hdr
        rw [show (u.lane i).startFactor i = _ from hf] at hgroup
        refine ⟨hlane.trans ((State.lane_setLane_same _ _ _).trans hb), hgroup.trans (State.raise_group _ rfl)⟩
    · obtain ⟨hs, a, ha, hc⟩ := (Lane.awaitsGpi_iff _ n).mp haw
      exact hno.elim (fun h => h hs) fun h => h a ha hc

end Sys2Proof.Machine

namespace Sys2Proof.Machine

/-! ### The lock of the Frame Clock (R131 to R134) -/

section
variable {s : State} {order : FrameOrder}

theorem periodExpiry_of_locked (h : s.clock.lock = .locked) : s.periodExpiry order = s := if_pos (.inl h)

theorem periodExpiry_of_inReset (h : s.inReset = true) : s.periodExpiry order = s := if_pos (.inr h)

theorem periodExpiry_of_running (hr : s.inReset = false) (hl : s.clock.lock ≠ .locked) : s.periodExpiry order =
    s.frameStart order (max s.clock.now (s.clock.origin + s.clock.period)) :=
  if_neg (by simp [hl, hr])

theorem windowEnd_of_unlocked (h : s.clock.lock ≠ .locked) : s.windowEnd order = s := if_neg h

/-- The state a clock that lost its reference leaves, with the count of pulses it starts from (R134). -/
def State.refLost (s : State) (n : Nat) : State :=
  { s with clock := { s.clock with lock := .holdover, consistent := n } }.raise .refLost

theorem windowEnd_of_locked (h : s.clock.lock = .locked) : s.windowEnd order =
    (s.frameStart order (max s.clock.now (s.clock.origin + s.clock.period + s.clock.period / 200))).refLost 0 := if_pos h

theorem windowEnd_lock (h : s.clock.lock = .locked) : (s.windowEnd order).clock.lock = .holdover := by
  rw [windowEnd_of_locked h]; rfl

/-- The pulse comes at the period spacing after the previous one (R132). -/
theorem FrameClock.spaced_iff (c : FrameClock) : c.spaced = true ↔
    ∃ p, c.previousPulse = some p ∧ p + c.period ≤ c.now + c.period / 200 ∧ c.now ≤ p + c.period + c.period / 200 := by
  unfold FrameClock.spaced FrameClock.halfWidth
  cases c.previousPulse <;> simp

/-- The count of consistent pulses that a pulse brings (R132). -/
def FrameClock.countNow (c : FrameClock) : Nat := if c.spaced then c.consistent + 1 else 1

/-- The state with a pulse at the present tick counted as the n-th (R132). -/
def State.counted (s : State) (n : Nat) : State :=
  { s with clock := { s.clock with consistent := n, previousPulse := some s.clock.now } }

/-- The state that locks (R133). -/
def State.locks (s : State) : State := { s with clock := { s.clock with lock := .locked } }.raise .locked

theorem countPulse_eq (s : State) (order : FrameOrder) : s.countPulse order =
    if s.clock.relock ≤ s.clock.countNow then
      if s.clock.period ≤ 2 * (s.clock.now - s.clock.origin) then
        (s.counted s.clock.countNow).locks.frameStart order s.clock.now
      else
        let u := (s.counted s.clock.countNow).locks
        { u with clock := { u.clock with origin := s.clock.now } }
    else s.counted s.clock.countNow := rfl

theorem pulseAt_of_free (h : s.clock.lock = .free) : s.pulseAt order = s := by rw [State.pulseAt, h]

theorem pulseAt_of_counting (h : s.clock.lock = .seek ∨ s.clock.lock = .holdover) :
    s.pulseAt order = s.countPulse order := by
  rcases h with h | h <;> rw [State.pulseAt, h]

theorem pulseAt_of_locked (h : s.clock.lock = .locked)
    (hnow : s.clock.now ≤ s.clock.origin + s.clock.period + s.clock.period / 200) :
    s.pulseAt order = s.lockedPulse order := by
  rw [State.pulseAt, h]
  exact if_neg (Nat.not_lt.mpr hnow)

/-- A pulse that finds the window past: the expiry of the window comes first, at its own instant (R134). -/
theorem pulseAt_of_late (h : s.clock.lock = .locked)
    (hnow : s.clock.origin + s.clock.period + s.clock.period / 200 < s.clock.now) : ∃ u : State,
      u = State.windowEnd { s with clock := { s.clock with now := s.clock.windowDue } } order ∧
      u.clock.lock = .holdover ∧
      s.pulseAt order = State.countPulse { u with clock := { u.clock with now := s.clock.now } } order := by
  refine ⟨_, rfl, windowEnd_lock (s := { s with clock := { s.clock with now := s.clock.windowDue } }) h, ?_⟩
  rw [State.pulseAt, h]
  exact if_pos hnow

/-- A pulse in LOCKED becomes the previous pulse (R134). -/
def State.pulsed (s : State) : State := { s with clock := { s.clock with previousPulse := some s.clock.now } }

theorem lockedPulse_early (h : s.clock.now + s.clock.period / 200 < s.clock.origin + s.clock.period) :
    s.lockedPulse order = s.pulsed.refLost 1 := if_neg (Nat.not_le.mpr h)

theorem lockedPulse_inside (h : s.clock.origin + s.clock.period ≤ s.clock.now + s.clock.period / 200) :
    s.lockedPulse order = s.pulsed.frameStart order s.clock.now := if_pos h

end

/-- Settles O56: each clause is the lemma of that lock state, with `countPulse_eq` and `FrameClock.spaced_iff` for the
pulses counted. -/
theorem timersAndPulsesDriveTheClock : Obligations.TimersAndPulsesDriveTheClock := by
  intro e order s
  refine ⟨fun hl => congrArg Host.Outcome.next (periodExpiry_of_locked hl),
    fun hr => congrArg Host.Outcome.next (periodExpiry_of_inReset hr),
    fun hr hl => congrArg Host.Outcome.next (periodExpiry_of_running hr hl),
    fun hl => congrArg Host.Outcome.next (windowEnd_of_unlocked hl),
    fun hl => ⟨_, rfl, congrArg Host.Outcome.next (windowEnd_of_locked hl)⟩,
    fun hl => congrArg Host.Outcome.next (pulseAt_of_free (s := s.elapse e) hl), fun n hl hn => ?_,
    fun hl => ⟨fun hearly => ?_, fun hinside hnow => ?_, fun hlate => ?_⟩⟩
  · have hcount : (s.elapse e).clock.countNow = n := by
      unfold FrameClock.countNow
      rcases hn with ⟨p, hp, hlow, hhigh, rfl⟩ | ⟨hnone, rfl⟩
      · exact if_pos ((FrameClock.spaced_iff (s.elapse e).clock).mpr ⟨p, hp, hlow, hhigh⟩)
      · refine if_neg fun hspaced => ?_
        obtain ⟨p, hp, hlow, hhigh⟩ := (FrameClock.spaced_iff _).mp hspaced
        exact (hnone p hp).elim (Nat.not_lt.mpr hlow) (Nat.not_lt.mpr hhigh)
    have hpulse := (pulseAt_of_counting (s := s.elapse e) (order := order) hl).trans (countPulse_eq _ _)
    rw [hcount] at hpulse
    refine ⟨fun hfew => congrArg Host.Outcome.next (hpulse.trans (if_neg (Nat.not_le.mpr hfew))),
      fun hlock hfar => congrArg Host.Outcome.next (hpulse.trans ((if_pos hlock).trans (if_pos hfar))),
      fun hlock hnear => congrArg Host.Outcome.next (hpulse.trans ((if_pos hlock).trans (if_neg (Nat.not_le.mpr hnear))))⟩
  · refine congrArg Host.Outcome.next ((pulseAt_of_locked (s := s.elapse e) hl ?_).trans (lockedPulse_early hearly))
    show s.clock.now + e ≤ s.clock.origin + s.clock.period + s.clock.period / 200
    omega
  · exact congrArg Host.Outcome.next ((pulseAt_of_locked (s := s.elapse e) hl hnow).trans (lockedPulse_inside hinside))
  · obtain ⟨u, hu, hlock, hpulse⟩ := pulseAt_of_late (s := s.elapse e) (order := order) hl hlate
    refine ⟨u, congrArg Host.Outcome.next hu.symm, congrArg Host.Outcome.next (hpulse.trans ?_)⟩
    exact (pulseAt_of_counting
      (s := State.elapse { u with clock := { u.clock with now := s.clock.now + e } } 0) (.inr hlock)).symm

end Sys2Proof.Machine

namespace Sys2Proof.Machine

/-! ### The frame start in its parts (R130) -/

section
variable (s : State) (order : FrameOrder) (at_ : Nat)

/-- The state in which the blocks answer a frame start: the counter risen, the origin moved, FRAME raised. -/
def State.frameBegun : State :=
  State.raise { s with clock := { s.clock with now := at_, counter := s.clock.counter + 1, origin := at_ } } .frame

/-- The state once every act of a frame start is done, before the Compositor answers. -/
def State.frameActed : State := (completeOrder order).foldl (State.frameAct s.compositor.freezes) (s.frameBegun at_)

theorem State.frameStart_eq : s.frameStart order at_ = (s.frameActed order at_).compositorFrame := rfl

theorem State.frameActed_work : LaneWork (s.frameBegun at_) (s.frameActed order at_) := .foldl (LaneWork.frameAct _) _ _

@[simp] theorem State.compositorFrame_clock : s.compositorFrame.clock = s.clock := by
  unfold State.compositorFrame
  split
  · rfl
  · dsimp only; split <;> rfl
  · rfl

theorem State.frameStart_clock : (s.frameStart order at_).clock =
    { s.clock with now := at_, origin := at_, counter := s.clock.counter + 1 } := by
  rw [State.frameStart_eq, State.compositorFrame_clock, (s.frameActed_work order at_).clock]
  rfl

end

/-! ### What leaves the Frame Clock alone -/

section
variable (s : State)

@[simp] theorem State.dropFrame_clock : s.dropFrame.clock = s.clock := by unfold State.dropFrame; split <;> rfl

@[simp] theorem State.offerFrame_clock (f : Frame) : (s.offerFrame f).clock = s.clock := by
  unfold State.offerFrame
  split
  · rfl
  · dsimp only; split <;> rfl

@[simp] theorem State.examine_clock (tick fuel : Nat) (bs : List Byte) :
    (State.examine tick fuel bs s).clock = s.clock := by
  induction fuel generalizing bs s with
  | zero => rfl
  | succ fuel ih =>
    cases bs with
    | nil => rfl
    | cons b rest =>
      unfold State.examine
      split
      · rw [ih]; split <;> rfl
      · dsimp only
        split_ifs <;> simp [ih]

@[simp] theorem State.concludeRefresh_clock (f : Formatting) : (s.concludeRefresh f).clock = s.clock := by
  unfold State.concludeRefresh
  split
  · rfl
  · split
    · rfl
    · split
      · rfl
      · split <;> rfl

@[simp] theorem State.levelChange_clock (n : GpiId) : (s.levelChange n).clock = s.clock := by
  have hcounted : (s.countedChange 0 n).clock = s.clock := by rw [countedChange_rest]; rfl
  unfold State.levelChange
  split
  · rfl
  · dsimp only
    split
    · exact hcounted
    · rfl

end

/-! ### Requests whose rule leaves the Frame Clock alone -/

section
variable {b : List Byte} {s : State} {c : FrameClock}

/-- A rule that leaves the Frame Clock alone whatever its request carries. -/
def RuleKeepsClock (rule : List Byte → State → State × Reply) : Prop := ∀ b s, (rule b s).1.clock = s.clock

theorem withGroup_clock {rule : GroupId → State × Reply} (h : ∀ g, (rule g).1.clock = s.clock) :
    (withGroup b s rule).1.clock = s.clock := by
  unfold withGroup; split
  · exact h _
  · rfl

theorem withLane_clock {rule : LaneId → State × Reply} (h : ∀ i, (rule i).1.clock = s.clock) :
    (withLane b s rule).1.clock = s.clock := by
  unfold withLane; split
  · exact h _
  · rfl

theorem withCue_clock {rule : LaneId → CueId → State × Reply} (h : ∀ i k, (rule i k).1.clock = s.clock) :
    (withCue b s rule).1.clock = s.clock := by
  unfold withCue; split
  · exact h _ _
  · rfl

theorem withItem_clock {rule : Nat → Item → State × Reply} (h : ∀ k it, (rule k it).1.clock = s.clock) :
    (withItem b s rule).1.clock = s.clock := by
  unfold withItem; split
  · exact h _ _
  · rfl

theorem withSymbol_clock {rule : Nat → SymbolRec → State × Reply} (h : ∀ k r, (rule k r).1.clock = s.clock) :
    (withSymbol b s rule).1.clock = s.clock := by
  unfold withSymbol; split
  · exact h _ _
  · rfl

/-- A choice between two states of one clock. -/
theorem ite_clock {p : Prop} [Decidable p] {x y : State × Reply} (hx : x.1.clock = c) (hy : y.1.clock = c) :
    (if p then x else y).1.clock = c := by
  split
  · exact hx
  · exact hy

/-! Event Unit and link requests -/

theorem eventPriorityRule_clock : RuleKeepsClock eventPriorityRule := fun _ _ => withGroup_clock fun _ => by
  split <;> rfl

theorem eventNextRule_clock : RuleKeepsClock eventNextRule := fun _ _ => by unfold eventNextRule; split <;> rfl

theorem attnMaskRule_clock : RuleKeepsClock attnMaskRule := fun _ _ => by unfold attnMaskRule; split <;> rfl

/-! Lane requests -/

theorem laneSetupRule_clock : RuleKeepsClock laneSetupRule := fun _ _ => withLane_clock fun _ => ite_clock rfl (by
  split
  · rfl
  · exact ite_clock rfl rfl)

theorem laneOffRule_clock : RuleKeepsClock laneOffRule := fun _ _ => withLane_clock fun _ =>
  ite_clock (LaneWork.freeItems _ _).clock rfl

theorem startNow_clock (i : LaneId) : (startNow s i).1.clock = s.clock := by
  unfold startNow
  dsimp only
  split
  · exact (LaneWork.startFrom s i _).clock
  · exact (LaneWork.startFrom s i _).clock
  · exact (LaneWork.startArmed s i).clock
  · exact ite_clock rfl rfl
  all_goals rfl

theorem armRule_clock (i : LaneId) (code gpi mask : Nat) : (armRule s i code gpi mask).1.clock = s.clock := by
  unfold armRule
  split
  · rfl
  · split <;> rfl

theorem laneStartRule_clock : RuleKeepsClock laneStartRule := fun _ _ => withLane_clock fun i =>
  ite_clock rfl (ite_clock (startNow_clock i) (armRule_clock i _ _ _))

theorem laneStopRule_clock (late : LaneSet) : RuleKeepsClock (laneStopRule late) := fun _ _ => withLane_clock fun _ => by
  split
  · rfl
  · split
    · rename_i h
      exact (LaneWork.applyStop h).clock
    · rfl

theorem laneSpeedRule_clock : RuleKeepsClock laneSpeedRule := fun _ _ => withLane_clock fun _ => ite_clock rfl rfl

theorem laneStageRule_clock : RuleKeepsClock laneStageRule := fun _ _ => withLane_clock fun _ =>
  ite_clock rfl (ite_clock rfl (ite_clock rfl rfl))

theorem laneResetRule_clock : RuleKeepsClock laneResetRule := fun _ _ => withLane_clock fun _ =>
  ite_clock rfl (LaneWork.freeItems _ _).clock

theorem holdReleaseRule_clock : RuleKeepsClock holdReleaseRule := fun _ _ => withLane_clock fun _ => ite_clock rfl rfl

theorem cueSetRule_clock : RuleKeepsClock cueSetRule := fun _ _ => withCue_clock fun _ _ => ite_clock rfl (by
  split
  · rfl
  · split <;> rfl)

theorem cueClearRule_clock : RuleKeepsClock cueClearRule := fun _ _ => withCue_clock fun _ _ => ite_clock rfl rfl

/-! Item requests -/

theorem makeItem_clock (i : LaneId) (off : Nat) (ink : Fin 16) (x : Content) (place : Nat → Lane → Lane) :
    (makeItem s i b off ink x place).1.clock = s.clock := by
  unfold makeItem
  split
  · rfl
  · exact (LaneWork.addReference _ x).clock

theorem itemAppendRule_clock : RuleKeepsClock itemAppendRule := fun _ _ => withLane_clock fun _ => ite_clock rfl (by
  split
  · rfl
  · split
    · rfl
    · exact makeItem_clock _ _ _ _ _)

theorem itemInsertRule_clock : RuleKeepsClock itemInsertRule := fun _ _ => withLane_clock fun _ => ite_clock rfl (by
  split
  · rfl
  · split
    · rfl
    · split
      · rfl
      · exact makeItem_clock _ _ _ _ _)

theorem itemReplaceRule_clock : RuleKeepsClock itemReplaceRule := fun _ _ => withItem_clock fun _ _ => ite_clock rfl (by
  split
  · rfl
  · refine ite_clock rfl ?_
    split
    · rfl
    · exact ((LaneWork.addReference _ _).trans (.dropReference _ _)).clock)

theorem itemRemoveRule_clock : RuleKeepsClock itemRemoveRule := fun _ _ => withItem_clock fun k _ =>
  ite_clock rfl (LaneWork.freeItem _ k).clock

theorem runClearRule_clock : RuleKeepsClock runClearRule := fun _ _ => withLane_clock fun _ =>
  (LaneWork.freeItems _ _).clock

/-! Symbol requests -/

theorem symDefineRule_clock : RuleKeepsClock symDefineRule := fun _ _ => by
  unfold symDefineRule
  dsimp only
  split
  · rfl
  · refine ite_clock rfl (ite_clock rfl ?_)
    split <;> rfl

theorem symPriceRule_clock : RuleKeepsClock symPriceRule := fun _ _ => withSymbol_clock fun k _ =>
  ite_clock rfl (ite_clock rfl (ite_clock rfl ((LaneWork.offerView _ k).clock.trans (by split <;> rfl))))

theorem symReferenceRule_clock : RuleKeepsClock symReferenceRule := fun _ _ => withSymbol_clock fun k _ =>
  ite_clock rfl (LaneWork.offerView _ k).clock

theorem symHaltRule_clock : RuleKeepsClock symHaltRule := fun _ _ => withSymbol_clock fun k _ =>
  ite_clock rfl (LaneWork.offerView _ k).clock

theorem symResumeRule_clock : RuleKeepsClock symResumeRule := fun _ _ => withSymbol_clock fun k _ =>
  ite_clock (LaneWork.offerView _ k).clock rfl

theorem symRemoveRule_clock : RuleKeepsClock symRemoveRule := fun _ _ => withSymbol_clock fun _ _ => ite_clock rfl rfl

theorem symScanRule_clock : RuleKeepsClock symScanRule := fun _ _ => ite_clock rfl rfl

theorem classSetupRule_clock : RuleKeepsClock classSetupRule := fun _ _ => by unfold classSetupRule; split <;> rfl

/-! Template, text, face and output requests -/

theorem templateSetRule_clock : RuleKeepsClock templateSetRule := fun _ _ => by
  unfold templateSetRule
  split
  · exact ite_clock rfl (ite_clock rfl rfl)
  · rfl

theorem templateQueryRule_clock : RuleKeepsClock templateQueryRule := fun _ _ => by
  unfold templateQueryRule; split <;> rfl

theorem textCreateRule_clock : RuleKeepsClock textCreateRule := fun _ _ =>
  ite_clock rfl (ite_clock rfl (ite_clock rfl rfl))

theorem textWriteRule_clock : RuleKeepsClock textWriteRule := fun _ _ => by
  unfold textWriteRule
  dsimp only
  split
  · rfl
  · exact ite_clock rfl (ite_clock rfl rfl)

theorem textFreeRule_clock : RuleKeepsClock textFreeRule := fun _ _ => by
  unfold textFreeRule
  dsimp only
  split
  · rfl
  · exact ite_clock rfl rfl

theorem faceSetupRule_clock : RuleKeepsClock faceSetupRule := fun _ _ => by
  unfold faceSetupRule
  dsimp only
  split
  · rfl
  · exact ite_clock rfl (ite_clock rfl (ite_clock rfl rfl))

theorem glyphLoadRule_clock : RuleKeepsClock glyphLoadRule := fun _ _ => by
  unfold glyphLoadRule
  split
  · rfl
  · refine ite_clock rfl (ite_clock (ite_clock rfl (ite_clock rfl (ite_clock rfl rfl))) ?_)
    unfold glyphContinue
    dsimp only
    split
    · rfl
    · exact ite_clock rfl (ite_clock rfl rfl)

theorem gpiSetupRule_clock : RuleKeepsClock gpiSetupRule := fun _ _ => by unfold gpiSetupRule; split <;> rfl

theorem paletteSetRule_clock : RuleKeepsClock paletteSetRule := fun _ _ => by
  unfold paletteSetRule
  dsimp only
  split
  · rfl
  · exact ite_clock rfl rfl

theorem outputSetupRule_clock : RuleKeepsClock outputSetupRule := fun _ _ => by unfold outputSetupRule; split <;> rfl

theorem outputResumeRule_clock : RuleKeepsClock outputResumeRule := fun _ _ => by unfold outputResumeRule; split <;> rfl

end

end Sys2Proof.Machine

namespace Sys2Proof.Machine

/-! ### The distance between frame starts (R130, R133) -/

section
variable {s t : State} {c d : FrameClock} {order : FrameOrder} {k tag : Byte} {b : List Byte}
  {rule : List Byte → State → State × Reply}

/-- Between clocks of two counts the origin has moved by at least half the period. -/
def FrameClock.KeepsDistance (c d : FrameClock) : Prop := d.counter ≠ c.counter → d.period ≤ 2 * (d.origin - c.origin)

theorem FrameClock.KeepsDistance.of_counter (h : d.counter = c.counter) : c.KeepsDistance d := fun hne => absurd h hne

theorem FrameClock.KeepsDistance.of_clock (h : t.clock = s.clock) : s.clock.KeepsDistance t.clock :=
  .of_counter (by rw [h])

/-- A frame start made at least half a period after the origin. -/
theorem frameStart_keepsDistance {at_ : Nat} (h : s.clock.period ≤ 2 * (at_ - s.clock.origin)) :
    s.clock.KeepsDistance (s.frameStart order at_).clock := fun _ => by
  rw [State.frameStart_clock]
  exact h

theorem periodExpiry_keepsDistance : s.clock.KeepsDistance (s.periodExpiry order).clock := by
  unfold State.periodExpiry
  split
  · exact .of_clock rfl
  · refine frameStart_keepsDistance ?_
    unfold FrameClock.periodDue
    omega

theorem windowEnd_clock (h : s.clock.lock = .locked) : (s.windowEnd order).clock.period = s.clock.period ∧
    (s.windowEnd order).clock.origin = max s.clock.now s.clock.windowDue := by
  rw [State.windowEnd, if_pos h, State.raise_clock, State.frameStart_clock]
  exact ⟨rfl, rfl⟩

theorem windowEnd_keepsDistance : s.clock.KeepsDistance (s.windowEnd order).clock := by
  by_cases h : s.clock.lock = .locked
  · intro _
    obtain ⟨hperiod, horigin⟩ := windowEnd_clock (order := order) h
    rw [hperiod, horigin]
    unfold FrameClock.windowDue
    omega
  · rw [windowEnd_of_unlocked h]
    exact .of_clock rfl

/-- A counted pulse makes its frame start at least half a period after the origin (R133). -/
theorem countPulse_keepsDistance : s.clock.KeepsDistance (s.countPulse order).clock := by
  rw [countPulse_eq]
  split
  · split
    · rename_i h
      exact frameStart_keepsDistance (s := (s.counted s.clock.countNow).locks) h
    · exact .of_counter rfl
  · exact .of_counter rfl

/-- A counted pulse keeps the period and moves the origin forward, if at all. -/
theorem countPulse_origin (h : s.clock.origin ≤ s.clock.now) : (s.countPulse order).clock.period = s.clock.period ∧
    s.clock.origin ≤ (s.countPulse order).clock.origin := by
  rw [countPulse_eq]
  split
  · split
    · rw [State.frameStart_clock]
      exact ⟨rfl, h⟩
    · exact ⟨rfl, h⟩
  · exact ⟨rfl, Nat.le_refl _⟩

theorem lockedPulse_keepsDistance : s.clock.KeepsDistance (s.lockedPulse order).clock := by
  rcases Nat.lt_or_ge (s.clock.now + s.clock.period / 200) (s.clock.origin + s.clock.period) with h | h
  · rw [lockedPulse_early h]
    exact .of_counter rfl
  · rw [lockedPulse_inside h]
    refine frameStart_keepsDistance (s := s.pulsed) ?_
    show s.clock.period ≤ 2 * (s.clock.now - s.clock.origin)
    omega

/-- A pulse after the end of the window comes after the frame start of that end, so the origin has moved by more than a
period when it is counted. -/
theorem pulseAt_keepsDistance : s.clock.KeepsDistance (s.pulseAt order).clock := by
  cases hlock : s.clock.lock with
  | free => rw [pulseAt_of_free hlock]; exact .of_clock rfl
  | seek => rw [pulseAt_of_counting (.inl hlock)]; exact countPulse_keepsDistance
  | holdover => rw [pulseAt_of_counting (.inr hlock)]; exact countPulse_keepsDistance
  | locked =>
    rcases Nat.lt_or_ge (s.clock.origin + s.clock.period + s.clock.period / 200) s.clock.now with hlate | htimely
    · obtain ⟨u, hu, -, hpulse⟩ := pulseAt_of_late (order := order) hlock hlate
      obtain ⟨hperiod, horigin⟩ :=
        windowEnd_clock (s := { s with clock := { s.clock with now := s.clock.windowDue } }) (order := order) hlock
      rw [← hu] at hperiod horigin
      have hdue : u.clock.origin = s.clock.origin + s.clock.period + s.clock.period / 200 :=
          horigin.trans (Nat.max_self _)
      obtain ⟨hp, ho⟩ := countPulse_origin (s := { u with clock := { u.clock with now := s.clock.now } }) (order := order)
        (by rw [hdue]; exact Nat.le_of_lt hlate)
      intro _
      rw [hpulse, hp]
      refine (Nat.le_of_eq hperiod).trans ?_
      replace ho : s.clock.origin + s.clock.period + s.clock.period / 200 ≤ _ := hdue ▸ ho
      show s.clock.period ≤ _
      omega
    · rw [pulseAt_of_locked hlock htimely]
      exact lockedPulse_keepsDistance

/-- A frame start that TIMING_SETUP makes is more than the new period after the origin kept (R135). -/
theorem timingSetupRule_keepsDistance : s.clock.KeepsDistance (timingSetupRule order b s).1.clock := by
  by_cases hbad : TimingBad b
  · rw [timingSetupRule_of_bad hbad]
    exact .of_clock rfl
  · obtain ⟨source, hsource⟩ : ∃ source, clockSource? (field b 0 1) = some source :=
      ⟨_, clockSource?_some (Nat.le_of_not_lt fun hs => hbad (.inl hs))⟩
    obtain ⟨-, horigin, hperiod, hcounter⟩ := s.clock.setUp_times source (field b 1 4) (field b 5 1)
    rw [timingSetupRule_of_good hbad hsource]
    dsimp only [accept_fst]
    split
    · rename_i hover
      obtain ⟨-, hlate⟩ := FrameClock.startOverdue_iff.mp hover
      intro _
      rw [State.frameStart_clock]
      dsimp only
      omega
    · exact .of_counter hcounter

/-! ### Every command but a reset -/

theorem inHand_clock {f : Frame} (h : s.inHand f = some t) : t.clock = s.clock := by
  unfold State.inHand at h
  split at h <;> split at h <;> cases h <;> rfl

/-- A request served, refused or not served leaves a clock that its rule may leave, or the clock it found. -/
theorem serve_clock {P : FrameClock → Prop} (h : P s.clock)
    (hr : ∀ u : State, u.clock = s.clock → P (rule b u).1.clock) :
    P (serve k tag b rule s).clock := by
  unfold serve
  split
  · exact h
  · rename_i u hu
    split
    · exact hr u (inHand_clock hu)
    · exact (inHand_clock hu).symm ▸ h

theorem serve_keepsDistance (hr : RuleKeepsClock rule) : s.clock.KeepsDistance (serve k tag b rule s).clock :=
  serve_clock (.of_counter rfl) fun u hu => .of_counter (by rw [hr, hu])

theorem exec_keepsDistance {c : Instr} (hsoft : ∀ e tag b, c ≠ .deviceReset e tag b)
    (hpower : ∀ edge, c ≠ .powerOnReset edge)
    (he : exec c s = .next t) : s.clock.KeepsDistance t.clock := by
  cases c with
  | deviceReset e tag b => exact absurd rfl (hsoft e tag b)
  | powerOnReset edge => exact absurd rfl (hpower edge)
  | timingSetup e order tag b =>
    cases he
    refine serve_clock (s := s.elapse e) (P := s.clock.KeepsDistance) (.of_counter rfl) fun u hu => ?_
    have hrule := timingSetupRule_keepsDistance (s := u) (order := order) (b := b)
    rw [hu] at hrule
    exact hrule
  | framePeriodExpiry order => cases he; exact periodExpiry_keepsDistance
  | windowExpiry order => cases he; exact windowEnd_keepsDistance
  | referencePulse e order => cases he; exact pulseAt_keepsDistance (s := s.elapse e)
  | ident => cases he; exact serve_keepsDistance fun _ _ => rfl
  | eventEnable => cases he; exact serve_keepsDistance fun _ _ => withGroup_clock fun _ => rfl
  | eventPriority => cases he; exact serve_keepsDistance eventPriorityRule_clock
  | eventSummary => cases he; exact serve_keepsDistance fun _ _ => rfl
  | eventNext => cases he; exact serve_keepsDistance eventNextRule_clock
  | eventRead => cases he; exact serve_keepsDistance fun _ _ => withGroup_clock fun _ => rfl
  | attnMask => cases he; exact serve_keepsDistance attnMaskRule_clock
  | laneSetup => cases he; exact serve_keepsDistance laneSetupRule_clock
  | laneOff => cases he; exact serve_keepsDistance laneOffRule_clock
  | laneStart => cases he; exact serve_keepsDistance laneStartRule_clock
  | laneStop late => cases he; exact serve_keepsDistance (laneStopRule_clock late)
  | laneSpeed => cases he; exact serve_keepsDistance laneSpeedRule_clock
  | laneStage => cases he; exact serve_keepsDistance laneStageRule_clock
  | laneReset => cases he; exact serve_keepsDistance laneResetRule_clock
  | laneQuery => cases he; exact serve_keepsDistance fun _ _ => withLane_clock fun _ => rfl
  | itemAppend => cases he; exact serve_keepsDistance itemAppendRule_clock
  | itemInsert => cases he; exact serve_keepsDistance itemInsertRule_clock
  | itemReplace => cases he; exact serve_keepsDistance itemReplaceRule_clock
  | itemRemove => cases he; exact serve_keepsDistance itemRemoveRule_clock
  | itemPasses => cases he; exact serve_keepsDistance fun _ _ => withItem_clock fun _ _ => rfl
  | runClear => cases he; exact serve_keepsDistance runClearRule_clock
  | itemQuery => cases he; exact serve_keepsDistance fun _ _ => withItem_clock fun _ _ => rfl
  | runList => cases he; exact serve_keepsDistance fun _ _ => withLane_clock fun _ => rfl
  | holdRelease => cases he; exact serve_keepsDistance holdReleaseRule_clock
  | cueSet => cases he; exact serve_keepsDistance cueSetRule_clock
  | cueClear => cases he; exact serve_keepsDistance cueClearRule_clock
  | cueQuery => cases he; exact serve_keepsDistance fun _ _ => withCue_clock fun _ _ => rfl
  | symDefine => cases he; exact serve_keepsDistance symDefineRule_clock
  | symPrice => cases he; exact serve_keepsDistance symPriceRule_clock
  | symReference => cases he; exact serve_keepsDistance symReferenceRule_clock
  | symHalt => cases he; exact serve_keepsDistance symHaltRule_clock
  | symResume => cases he; exact serve_keepsDistance symResumeRule_clock
  | symRemove => cases he; exact serve_keepsDistance symRemoveRule_clock
  | symQuery => cases he; exact serve_keepsDistance fun _ _ => withSymbol_clock fun _ _ => rfl
  | symScan => cases he; exact serve_keepsDistance symScanRule_clock
  | classSetup => cases he; exact serve_keepsDistance classSetupRule_clock
  | templateSet => cases he; exact serve_keepsDistance templateSetRule_clock
  | templateQuery => cases he; exact serve_keepsDistance templateQueryRule_clock
  | textCreate => cases he; exact serve_keepsDistance textCreateRule_clock
  | textWrite => cases he; exact serve_keepsDistance textWriteRule_clock
  | textFree => cases he; exact serve_keepsDistance textFreeRule_clock
  | faceSetup => cases he; exact serve_keepsDistance faceSetupRule_clock
  | glyphLoad => cases he; exact serve_keepsDistance glyphLoadRule_clock
  | storeQuery => cases he; exact serve_keepsDistance fun _ _ => rfl
  | timingQuery => cases he; exact serve_keepsDistance fun _ _ => rfl
  | gpiSetup => cases he; exact serve_keepsDistance gpiSetupRule_clock
  | paletteSet => cases he; exact serve_keepsDistance paletteSetRule_clock
  | outputSetup => cases he; exact serve_keepsDistance outputSetupRule_clock
  | outputResume => cases he; exact serve_keepsDistance outputResumeRule_clock
  | unknownKind kind tag body =>
    cases he
    split
    · rename_i u _ hu
      exact .of_clock (t := u) (inHand_clock hu)
    · exact .of_clock rfl
  | decoderTake => cases he; exact .of_clock rfl
  | replySent => cases he; exact .of_clock rfl
  | receiveByte elapsed byte =>
    cases he
    refine .of_counter ?_
    split
    · rfl
    · rw [State.byteArrives, State.examine_clock]
      split
      · rw [State.dropFrame_clock]; rfl
      · rfl
  | byteError elapsed =>
    cases he
    refine .of_counter ?_
    split
    · rfl
    · rw [State.dropFrame_clock]; rfl
  | interByteTimeout =>
    cases he
    refine .of_counter ?_
    split
    · rfl
    · rw [State.dropFrame_clock]
  | armedStart lane =>
    cases he
    refine .of_clock ?_
    split
    · exact (LaneWork.startArmed s lane).clock
    · rfl
  | holdDwellExpiry lane =>
    cases he
    refine .of_clock ?_
    split <;> rfl
  | symbolStale slot => cases he; exact .of_clock (LaneWork.checkSymbol s slot).clock
  | compositionComplete =>
    cases he
    refine .of_clock ?_
    split <;> rfl
  | refreshTake => cases he; exact .of_clock (LaneWork.takeRefresh s).clock
  | refreshComplete =>
    replace he : execRefreshComplete s = .next t := he
    unfold execRefreshComplete at he
    split at he <;> cases he
    · exact .of_clock rfl
    · exact .of_clock ((LaneWork.takeRefresh _).clock.trans (s.concludeRefresh_clock _))
  | gpiLevelChange elapsed input =>
    cases he
    exact .of_counter (by rw [State.levelChange_clock]; rfl)
  | gpiDebounceExpiry input late =>
    cases he
    refine .of_counter ?_
    split
    · rfl
    · rw [countedChange_rest]; rfl

end

/-- Settles O58: `exec_keepsDistance`, where the frame starts of the timers, of the pulses and of TIMING_SETUP are measured
and no other command changes the counter. -/
theorem frameStartsKeepTheirDistance : Obligations.FrameStartsKeepTheirDistance :=
  fun _ _ _ _ hsoft hpower he => exec_keepsDistance hsoft hpower he

end Sys2Proof.Machine

namespace Sys2Proof.Machine

/-! ### What a frame start changes of symbols and of lanes it does not reach -/

/-- A symbol record with its reference count and view list changed, and nothing else (R43, R90). -/
def SymbolRec.Alike (r r' : SymbolRec) : Prop := r' = { r with refCount := r'.refCount, viewList := r'.viewList }

theorem SymbolRec.Alike.refl (r : SymbolRec) : r.Alike r := rfl

theorem SymbolRec.Alike.trans {a b c : SymbolRec} (h : a.Alike b) (h' : b.Alike c) : a.Alike c := by
  rw [SymbolRec.Alike] at *
  rw [h', h]

/-- The same symbols are defined, each alike. -/
def SymbolsAlike (s t : State) : Prop := ∀ k, (s.symbol? k = none → t.symbol? k = none) ∧
  ∀ r, s.symbol? k = some r → ∃ r', t.symbol? k = some r' ∧ r.Alike r'

/-- A run list that lost items, and a lane with nothing else changed. -/
structure Lane.Sheds (l l' : Lane) : Prop where
  visible : l'.visible.Sublist l.visible
  queued : l'.queued.Sublist l.queued
  rest : l' = { l with visible := l'.visible, queued := l'.queued }

/-- What the answers of other lanes may do to a lane: items may leave its run list, and it may start once when it is
ARMED (R63, R73). -/
def Lane.Reached (l l' : Lane) : Prop :=
  l.Sheds l' ∨ ∃ a m, l.state = .armed ∧ l.arm = some a ∧ l.Sheds m ∧ (m.begun a.returns).Sheds l'

/-- A lane in RUN, BRAKE, HELD or STOPPED. -/
def Lane.Live (l : Lane) : Prop := l.state = .run ∨ l.state = .brake ∨ l.state = .held ∨ l.state = .stopped

section
variable {s t u : State} {l m l' : Lane} {k : Nat}

theorem SymbolsAlike.refl (s : State) : SymbolsAlike s s := fun _ => ⟨id, fun r h => ⟨r, h, .refl r⟩⟩

theorem SymbolsAlike.trans (a : SymbolsAlike s t) (b : SymbolsAlike t u) : SymbolsAlike s u := fun k => by
  refine ⟨fun h => (b k).1 ((a k).1 h), fun r h => ?_⟩
  obtain ⟨r', h', e'⟩ := (a k).2 r h
  obtain ⟨r'', h'', e''⟩ := (b k).2 r' h'
  exact ⟨r'', h'', e'.trans e''⟩

theorem SymbolsAlike.of_symbols (h : t.symbols = s.symbols) : SymbolsAlike s t := fun k => by
  have : t.symbol? k = s.symbol? k := by rw [State.symbol?, h, State.symbol?]
  rw [this]
  exact SymbolsAlike.refl s k

theorem SymbolsAlike.of_map {f : Nat → SymbolRec → SymbolRec} (h : ∀ k, t.symbol? k = (s.symbol? k).map (f k))
    (hf : ∀ (k : Nat) (r : SymbolRec), r.Alike (f k r)) : SymbolsAlike s t := fun k => by
  rw [h k]
  exact ⟨fun h => by rw [h]; rfl, fun r h => ⟨f k r, by rw [h]; rfl, hf k r⟩⟩

theorem Lane.Sheds.refl (l : Lane) : l.Sheds l := ⟨.refl _, .refl _, rfl⟩

theorem Lane.Sheds.trans (a : l.Sheds m) (b : m.Sheds l') : l.Sheds l' :=
  ⟨b.visible.trans a.visible, b.queued.trans a.queued, by rw [b.rest, a.rest]⟩

theorem Lane.Sheds.state (h : l.Sheds l') : l'.state = l.state := by rw [h.rest]

theorem Lane.Sheds.arm (h : l.Sheds l') : l'.arm = l.arm := by rw [h.rest]

theorem Lane.Sheds.dropItem (l : Lane) (k : Nat) : l.Sheds (l.dropItem k) :=
  ⟨List.erase_sublist, List.erase_sublist, rfl⟩

/-- A lane that lost no item is as it was. -/
theorem Lane.Sheds.eq (h : l.Sheds l') (hv : l'.visible = l.visible) (hq : l'.queued = l.queued) : l' = l := by
  rw [h.rest, hv, hq]

theorem Lane.Reached.refl (l : Lane) : l.Reached l := .inl (.refl l)

theorem Lane.Reached.begun {a : Arm} (hs : l.state = .armed) (ha : l.arm = some a) : l.Reached (l.begun a.returns) :=
  .inr ⟨a, l, hs, ha, .refl l, .refl _⟩

theorem Lane.Reached.trans (a : l.Reached m) (b : m.Reached l') : l.Reached l' := by
  rcases a with a | ⟨x, n, hs, hx, hn, hm⟩
  · rcases b with b | ⟨x, n, hs, hx, hn, hl⟩
    · exact .inl (a.trans b)
    · exact .inr ⟨x, n, a.state ▸ hs, a.arm ▸ hx, a.trans hn, hl⟩
  · rcases b with b | ⟨y, -, -, hy, -, -⟩
    · exact .inr ⟨x, n, hs, hx, hn, hm.trans b⟩
    · rw [hm.arm, Lane.begun_arm] at hy
      cases hy

/-- A lane that is not ARMED is not started. -/
theorem Lane.Reached.sheds (h : l.Reached l') (hs : l.state ≠ .armed) : l.Sheds l' :=
  h.resolve_right fun ⟨_, _, harmed, _⟩ => hs harmed

/-- A lane whose run list is kept is as it was, or has started. -/
theorem Lane.Reached.kept (h : l.Reached l') (hv : l'.visible = l.visible) (hq : l'.queued = l.queued) :
    l' = l ∨ ∃ a, l.state = .armed ∧ l.arm = some a ∧ l' = l.begun a.returns := by
  rcases h with h | ⟨a, m, hs, ha, hm, hl⟩
  · exact .inl (h.eq hv hq)
  · have hmv := hl.visible
    have hmq := hl.queued
    rw [Lane.begun_visible, hv] at hmv
    rw [Lane.begun_queued, hq] at hmq
    obtain rfl : m = l := hm.eq (hm.visible.antisymm hmv) (hm.queued.antisymm hmq)
    exact .inr ⟨a, hs, ha, hl.eq (by rw [hv, Lane.begun_visible]) (by rw [hq, Lane.begun_queued])⟩

theorem Lane.Live.not_armed (h : l.Live) : l.state ≠ .armed := by
  rcases h with h | h | h | h <;> simp [h]

theorem Lane.Live.of_state (h : l.Live) (hs : l'.state = l.state) : l'.Live := by rwa [Lane.Live, hs]

theorem Lane.Live.of_stopped (hs : l.state = .stopped) : l.Live := .inr (.inr (.inr hs))

end

end Sys2Proof.Machine

namespace Sys2Proof.Machine

/-! ### What an answer of a lane cannot do (R5, R86, R147) -/

/-- t is s after work of lane j: no symbol becomes stale, neither STALE nor FROZEN is raised, lane j stays live, and
every other lane is reached at most. -/
structure AnswerOf (j : LaneId) (s t : State) : Prop where
  symbols : SymbolsAlike s t
  symbolGroup : t.events.groups[(8 : GroupId)] = s.events.groups[(8 : GroupId)]
  frozen : ∀ i, t.events.groups[laneGroup i].pending.getLsbD 15 = s.events.groups[laneGroup i].pending.getLsbD 15
  others : ∀ i, i ≠ j → (s.lane i).Reached (t.lane i)
  live : (s.lane j).Live → (t.lane j).Live

section
variable {s t u : State} {i j k : LaneId} {f : Factor} {l : Lane}

theorem AnswerOf.refl (j : LaneId) (s : State) : AnswerOf j s s := ⟨.refl s, rfl, fun _ => rfl, fun _ _ => .refl _, id⟩

theorem AnswerOf.trans (a : AnswerOf j s t) (b : AnswerOf j t u) : AnswerOf j s u :=
  ⟨a.symbols.trans b.symbols, b.symbolGroup.trans a.symbolGroup, fun i => (b.frozen i).trans (a.frozen i),
    fun i h => (a.others i h).trans (b.others i h), b.live ∘ a.live⟩

theorem AnswerOf.foldl {α : Type} {f : State → α → State} (h : ∀ s a, AnswerOf j s (f s a)) (as : List α) (s : State) :
    AnswerOf j s (as.foldl f s) := by
  induction as generalizing s with
  | nil => exact .refl j s
  | cons a as ih => exact (h s a).trans (ih (f s a))

/-- Work that leaves lanes and factors alone. -/
theorem AnswerOf.of_same (hl : t.lanes = s.lanes) (he : t.events = s.events) (hs : SymbolsAlike s t) :
    AnswerOf j s t := by
  have hlane (i : LaneId) : t.lane i = s.lane i := State.lane_congr hl i
  exact ⟨hs, by rw [he], fun _ => by rw [he], fun i _ => by rw [hlane]; exact .refl _, fun h => by rwa [hlane]⟩

/-- A factor at another place than FROZEN's, of another group than the Symbol Table's. -/
theorem State.raise_frozen (s : State) (h : f.place ≠ 15) (i : LaneId) :
    (s.raise f).events.groups[laneGroup i].pending.getLsbD 15 = s.events.groups[laneGroup i].pending.getLsbD 15 := by
  by_cases hg : f.group = laneGroup i
  · rw [Bool.eq_iff_iff, State.raise_pending_getLsbD s hg (by omega)]
    exact or_iff_left fun h' => h h'.1.symm
  · rw [State.raise_events, EventUnit.record_groups, if_neg (Ne.symm hg)]

/-- A factor of another group leaves a group alone. -/
theorem State.raise_other (s : State) {g : GroupId} (h : g ≠ f.group) :
    (s.raise f).events.groups[g] = s.events.groups[g] := by
  rw [State.raise_events, EventUnit.record_groups, if_neg h]

theorem laneGroup_ne_symbols (i : LaneId) : (8 : GroupId) ≠ laneGroup i := by revert i; decide

/-- A factor of a lane other than FROZEN. -/
theorem AnswerOf.raise (h : AnswerOf j s t) (hg : f.group = laneGroup i) (hp : f.place ≠ 15) :
    AnswerOf j s (t.raise f) :=
  h.trans ⟨.of_symbols rfl, t.raise_other (hg ▸ laneGroup_ne_symbols i), t.raise_frozen hp, fun _ _ => .refl _, id⟩

theorem AnswerOf.setLane (hl : (s.lane j).Live → l.Live) : AnswerOf j s (s.setLane j l) :=
  ⟨.of_symbols rfl, rfl, fun _ => rfl, fun i h => by rw [s.lane_setLane_ne (Ne.symm h)]; exact .refl _,
    fun h => by rw [State.lane_setLane_same]; exact hl h⟩

theorem AnswerOf.setLane_state (hs : l.state = (s.lane j).state) : AnswerOf j s (s.setLane j l) :=
  .setLane fun h => h.of_state hs

/-- Lane j stops. -/
theorem AnswerOf.stop (hs : l.state = .stopped) : AnswerOf j s (s.setLane j l) := .setLane fun _ => .of_stopped hs

/-! ### Symbols, items and refreshes -/

theorem SymbolsAlike.quoted {c : Content} {f : SymbolRec → SymbolRec}
    (h : ∀ k, t.symbol? k = (s.symbol? k).map fun r => if c.quotes k then f r else r)
    (hf : ∀ r : SymbolRec, r.Alike (f r)) : SymbolsAlike s t :=
  .of_map h fun k r => by
    cases c.quotes k
    · exact .refl r
    · exact hf r

theorem AnswerOf.joinView (s : State) (n : Nat) (c : Content) : AnswerOf j s (s.joinView n c) :=
  .of_same (s.joinView_lanes n c) (s.joinView_events n c) (.quoted (fun _ => s.symbol?_joinView c n _) fun _ => rfl)

theorem AnswerOf.leaveView (s : State) (n : Nat) (c : Content) : AnswerOf j s (s.leaveView n c) :=
  .of_same (s.leaveView_lanes n c) (s.leaveView_events n c) (.quoted (fun _ => s.symbol?_leaveView c n _) fun _ => rfl)

theorem AnswerOf.updItem (s : State) (n : Nat) (f : Item → Item) : AnswerOf j s (s.updItem n f) :=
  .of_same rfl rfl (.of_symbols rfl)

theorem AnswerOf.dropItem (s : State) (j : LaneId) (n : Nat) : AnswerOf j s (s.updLane j (Lane.dropItem n)) :=
  .setLane_state rfl

/-- An item freed leaves the run list of its lane (R31). -/
theorem AnswerOf.freeItem (s : State) (n : Nat) : AnswerOf j s (s.freeItem n) := by
  cases hit : s.item? n with
  | none => rw [State.freeItem_none hit]; exact .refl j s
  | some it =>
    have hevents : (s.freeItem n).events = s.events := by rw [State.freeItem_rest hit]
    have hsheds (i : LaneId) : (s.lane i).Sheds ((s.freeItem n).lane i) := by
      rw [State.freeItem_lane_eq hit]
      split
      · exact .dropItem _ n
      · exact .refl _
    exact ⟨.quoted (State.freeItem_symbol? hit) fun _ => rfl, by rw [hevents], fun _ => by rw [hevents],
      fun i _ => .inl (hsheds i), fun h => h.of_state (hsheds j).state⟩

theorem AnswerOf.disposeItem (s : State) (j : LaneId) (n p : Nat) : AnswerOf j s (s.disposeItem j n p) := by
  unfold State.disposeItem
  split
  · exact (AnswerOf.freeItem s n).raise rfl (by simp [Factor.place])
  · exact (AnswerOf.updItem s n _).trans (.setLane_state rfl)

/-! ### Starts, comings to rest and stops -/

theorem AnswerOf.startArmed (s : State) (k : LaneId) : AnswerOf j s (s.startArmed k) := by
  cases ha : (s.lane k).arm with
  | none =>
    have : s.startArmed k = s := by simp [State.startArmed, ha]
    rw [this]; exact .refl j s
  | some a =>
    by_cases hs : (s.lane k).state = .armed
    · have hplace : ((s.lane k).startFactor k).place ≠ 15 := by unfold Lane.startFactor; split <;> simp [Factor.place]
      rw [State.startArmed_eq hs ha]
      refine AnswerOf.raise ?_ (Lane.startFactor_group _ k) hplace
      refine ⟨.of_symbols rfl, rfl, fun _ => rfl, fun i _ => ?_, fun h => ?_⟩
      · rw [State.lane_setLane]
        split
        · rename_i e
          subst e
          exact .begun hs ha
        · exact .refl _
      · have hne : k ≠ j := by
          rintro rfl
          exact h.not_armed hs
        rwa [s.lane_setLane_ne hne]
    · have : s.startArmed k = s := by simp [State.startArmed, ha, hs]
      rw [this]; exact .refl j s

theorem AnswerOf.comesToRest (h : AnswerOf j s t) (k : LaneId) : AnswerOf j s (t.comesToRest 0 k) :=
  h.trans (.foldl (fun s m => by
    have : s.meetCondition 0 m = s.startArmed m := if_neg (by simp)
    rw [this]
    exact .startArmed s m) _ t)

theorem AnswerOf.pulses (h : AnswerOf j s t) (mask : LaneSet) : AnswerOf j s (t.pulses mask) :=
  h.trans (.foldl (fun s m => by
    unfold State.pulse
    split
    · exact .startArmed s m
    · exact .refl j s) _ t)

theorem AnswerOf.stopNow (s : State) (j : LaneId) : AnswerOf j s (s.stopNow 0 j) := by
  have h : AnswerOf j s ((s.setLane j { s.lane j with
      state := .stopped, velocity := 0, brake := none, dwell := 0, clearing := false }).raise (.stopped j)) :=
    (AnswerOf.stop rfl).raise rfl (by simp [Factor.place])
  unfold State.stopNow
  dsimp only
  split
  · exact h.comesToRest j
  · exact h

/-- A stop of lane j leaves it live if it was; one that was ARMED was not (R20). -/
theorem AnswerOf.applyStop {m : StopMode} (h : s.applyStop 0 j m = some t) : AnswerOf j s t := by
  cases hs : (s.lane j).state with
  | off | idle | stopped | frozen => rw [applyStop_of_still (by simp [hs])] at h; cases h
  | armed =>
    cases m with
    | now =>
      rw [applyStop_armed_now hs] at h
      cases h
      exact .setLane fun hlive => absurd hs hlive.not_armed
    | ramp | clear => rw [applyStop_armed_other hs (by simp)] at h; cases h
  | run | brake =>
    cases m with
    | now => rw [applyStop_now (by simp [hs])] at h; cases h; exact .stopNow s j
    | ramp =>
      rw [applyStop_moving_ramp (by simp [hs])] at h
      split at h <;> cases h
      exact .setLane fun _ => .inr (.inl rfl)
    | clear =>
      rw [applyStop_moving_clear (by simp [hs])] at h
      split at h <;> cases h
      exact .setLane_state rfl
  | held =>
    cases m with
    | now => rw [applyStop_now (by simp [hs])] at h; cases h; exact .stopNow s j
    | ramp =>
      rw [applyStop_held_ramp hs] at h
      cases h
      exact (AnswerOf.stop rfl).raise rfl (by simp [Factor.place])
    | clear =>
      rw [applyStop_held_clear hs] at h
      split at h <;> cases h
      exact .setLane_state rfl

/-! ### The parts of an advance -/

theorem stepLane_live {l : Lane} (h : l.Live) : (stepLane l).lane.Live := by
  unfold stepLane
  split
  · unfold rampStep
    dsimp only
    split
    · exact .of_stopped rfl
    · split <;> exact h.of_state rfl
  · split
    · exact .inl rfl
    · split
      · exact .inr (.inl rfl)
      · unfold targetStep
        dsimp only
        split
        · exact h.of_state rfl
        · exact .inr (.inl rfl)

theorem Lane.land_live (l : Lane) (ramp : Bool) : (l.land ramp).Live := by
  unfold Lane.land
  dsimp only
  split
  · exact .of_stopped rfl
  · exact .inr (.inr (.inl rfl))

/-- A landing raises factors at places 1, 3, 5 to 8 and 13 (R11, R13, R14). -/
theorem AnswerOf.landed (s : State) (j : LaneId) (r : StepResult) : AnswerOf j s (s.landed j r) := by
  have w := s.landed_factors j r
  refine ⟨.of_symbols (by rw [w.rest]), w.groups _ (laneGroup_ne_symbols j), fun i => ?_,
    fun i h => by rw [w.lanes i h]; exact .refl _, fun _ => by rw [State.landed_lane]; exact Lane.land_live _ _⟩
  by_cases e : i = j
  · subst e
    rw [Bool.eq_iff_iff, State.landed_pending s i r (by omega)]
    refine or_iff_left ?_
    rintro (⟨h, -⟩ | ⟨-, ⟨h, -⟩ | ⟨k, h, -⟩ | ⟨h, -⟩⟩) <;> omega
  · rw [w.groups _ (laneGroup_ne e)]

theorem AnswerOf.stepPart (s : State) (j : LaneId) : AnswerOf j s (s.stepPart j) := by
  have hset : AnswerOf j s (s.setLane j (stepLane (s.lane j)).lane) := .setLane stepLane_live
  unfold State.stepPart
  dsimp only
  split
  · rw [State.landOn_eq]
    exact ((AnswerOf.landed s j _).comesToRest j).trans (.foldl (fun s _ => (AnswerOf.refl j s).pulses _) _ _)
  · split
    · exact (hset.raise rfl (by simp [Factor.place])).comesToRest j
    · exact hset

theorem AnswerOf.retire (s : State) (j : LaneId) (n : Nat) (it : Item) : AnswerOf j s (s.retire j n it) :=
  (((AnswerOf.leaveView s n _).trans (.updItem _ n _)).trans (.dropItem _ j n)).trans (.disposeItem _ j n _)

theorem AnswerOf.retireFrom (j : LaneId) (ns : List Nat) (s : State) : AnswerOf j s (s.retireFrom j ns) := by
  induction ns generalizing s with
  | nil => exact .refl j s
  | cons n ns ih =>
    unfold State.retireFrom
    split
    · split
      · split
        · exact (AnswerOf.retire s j n _).trans (ih _)
        · exact .refl j s
      · exact .refl j s
    · exact .refl j s

/-- Lane j stops with two factors and comes to rest (R23, R42). -/
theorem AnswerOf.stops (s : State) (j : LaneId) {f g : Factor} (hf : f.group = laneGroup j) (hf' : f.place ≠ 15)
    (hg : g.group = laneGroup j) (hg' : g.place ≠ 15) :
    let stopped := s.setLane j { s.lane j with state := .stopped, velocity := 0, brake := none }
    AnswerOf j s (((stopped.raise f).raise g).comesToRest 0 j) :=
  (((AnswerOf.stop rfl).raise hf hf').raise hg hg').comesToRest j

theorem AnswerOf.clearPart (s : State) (j : LaneId) : AnswerOf j s (s.clearPart j) := by
  unfold State.clearPart
  dsimp only
  split
  · exact .stops s j rfl (by simp [Factor.place]) rfl (by simp [Factor.place])
  · exact .refl j s

theorem AnswerOf.drainPart (s : State) (j : LaneId) : AnswerOf j s (s.drainPart j) := by
  unfold State.drainPart
  dsimp only
  split
  · exact .stops s j rfl (by simp [Factor.place]) rfl (by simp [Factor.place])
  · exact .refl j s

theorem AnswerOf.enterItem (s : State) (j : LaneId) (before n : Nat) (it : Item) :
    AnswerOf j s (s.enterItem j before n it) := by
  rw [State.enterItem_eq]
  have hset (u : State) : AnswerOf j u (u.setLane j ((u.lane j).entered n (s.entryCell j before it) it.holdDwell)) :=
    .setLane_state rfl
  exact (((AnswerOf.updItem s n _).trans (hset _)).raise (f := .entry j) rfl (by simp [Factor.place])).trans
    (.joinView _ n _)

theorem AnswerOf.skipItem (s : State) (j : LaneId) (n : Nat) (it : Item) : AnswerOf j s (s.skipItem j n it) :=
  (AnswerOf.dropItem s j n).trans (.disposeItem _ j n _)

theorem AnswerOf.enterItems (j : LaneId) (before fuel : Nat) (r : EntryRun) :
    AnswerOf j r.state (enterItems j before fuel r).state := by
  induction fuel generalizing r with
  | zero => exact .refl j _
  | succ fuel ih =>
    have hfault : AnswerOf j r.state (r.state.raise (.formatFault j)) :=
      (AnswerOf.refl j _).raise rfl (by simp [Factor.place])
    unfold Machine.enterItems
    split
    · exact .refl j _
    · split
      · exact .refl j _
      · split
        · exact .refl j _
        · split
          · dsimp only
            split
            · exact (hfault.trans (.skipItem _ j _ _)).trans (ih ⟨_, _, _⟩)
            · exact (hfault.trans (.enterItem _ j before _ _)).trans (ih ⟨_, _, _⟩)
          · exact (AnswerOf.enterItem _ j before _ _).trans (ih ⟨_, _, _⟩)

theorem AnswerOf.matchCue (s : State) (j : LaneId) (k : CueId) : AnswerOf j s (s.matchCue j k) := by
  rw [State.matchCue_eq]
  exact ((AnswerOf.setLane_state (Lane.matched_state _ k)).raise rfl (by simp only [Factor.place]; omega)).pulses _

theorem AnswerOf.cueActions (s : State) (j : LaneId) (as : List CueAction) : AnswerOf j s (s.cueActions j as) := by
  have stop (u : State) (m : StopMode) : AnswerOf j u ((u.applyStop 0 j m).getD u) := by
    cases h : u.applyStop 0 j m with
    | none => exact .refl j u
    | some v => exact .applyStop h
  have load : AnswerOf j s (if .loadStaged ∈ as then s.updLane j Lane.loadStaged else s) := by
    split
    · exact .setLane_state (by unfold Lane.loadStaged; split <;> rfl)
    · exact .refl j s
  have acts (u : State) : AnswerOf j u (if .stopNow ∈ as then (u.applyStop 0 j .now).getD u
      else if .stopRamp ∈ as then (u.applyStop 0 j .ramp).getD u else u) := by
    split
    · exact stop u .now
    · split
      · exact stop u .ramp
      · exact .refl j u
  exact load.trans (acts _)

theorem AnswerOf.cuePart (s : State) (j : LaneId) (v : CueView) : AnswerOf j s (s.cuePart j v) :=
  (AnswerOf.foldl (fun s k => .matchCue s j k) _ s).trans (.cueActions _ j _)

/-- A moving advance (R5). -/
theorem AnswerOf.advance (s : State) (j : LaneId) : AnswerOf j s (s.advance j) := by
  have hretire (u : State) : AnswerOf j u (u.retirePart j) := .retireFrom j _ u
  have hentry (u : State) (before : Nat) : AnswerOf j u (u.entryPart j before).state :=
    .enterItems j before _ { state := u, entered := [], passed := [] }
  have hparts := ((((AnswerOf.stepPart s j).trans (hretire _)).trans (.clearPart _ j)).trans
    (hentry _ (s.lane j).travel)).trans (.drainPart _ j)
  have hcount (u : State) : AnswerOf j u (u.updLane j fun l => { l with runFrames := l.runFrames + 1 }) :=
    .setLane_state rfl
  exact (hparts.trans (.cuePart _ j _)).trans (hcount _)

theorem AnswerOf.flashPart (s : State) (j : LaneId) : AnswerOf j s (s.flashPart j) :=
  .foldl (fun s n => .updItem s n _) _ s

theorem AnswerOf.countDwell (s : State) (j : LaneId) : AnswerOf j s (s.countDwell j) := by
  unfold State.countDwell
  split
  · exact AnswerOf.raise (.setLane fun _ => .inl rfl) rfl (by simp [Factor.place])
  · exact .setLane_state rfl

/-- A lane's answer to a frame start (R5). -/
theorem AnswerOf.answerFrame (s : State) (j : LaneId) : AnswerOf j s (s.answerFrame j) := by
  cases hs : (s.lane j).state with
  | off | idle | frozen => rw [answerFrame_of_bare (by simp [hs])]; exact .refl j s
  | armed =>
    have hu : AnswerOf j s (s.armedFlash j) := by
      unfold State.armedFlash
      split
      · exact .flashPart s j
      · exact .refl j s
    rw [answerFrame_of_armed hs]
    split
    · exact hu.trans (.startArmed _ j)
    · exact hu
  | run | brake => rw [answerFrame_of_moving (by simp [hs])]; exact (AnswerOf.flashPart s j).trans (.advance _ j)
  | held => rw [answerFrame_of_held hs]; exact (AnswerOf.flashPart s j).trans (.countDwell _ j)
  | stopped => rw [answerFrame_of_stopped hs]; exact .flashPart s j

end

end Sys2Proof.Machine

namespace Sys2Proof.Machine

/-! ### What an offer of refreshes leaves alone (R107) -/

/-- The symbols, the factors of the Symbol Table's group and every lane's FROZEN are as they were. -/
structure OnlyOffers (s t : State) : Prop where
  symbols : t.symbols = s.symbols
  symbolGroup : t.events.groups[(8 : GroupId)] = s.events.groups[(8 : GroupId)]
  frozen : ∀ i, t.events.groups[laneGroup i].pending.getLsbD 15 = s.events.groups[laneGroup i].pending.getLsbD 15

section
variable {s t u : State} {k : Nat} {f : Factor} {g : GroupId}

theorem OnlyOffers.trans (a : OnlyOffers s t) (b : OnlyOffers t u) : OnlyOffers s u :=
  ⟨b.symbols.trans a.symbols, b.symbolGroup.trans a.symbolGroup, fun i => (b.frozen i).trans (a.frozen i)⟩

theorem OnlyOffers.of_same (hs : t.symbols = s.symbols) (he : t.events = s.events) : OnlyOffers s t :=
  ⟨hs, by rw [he], fun _ => by rw [he]⟩

theorem OnlyOffers.offer (s : State) (k : Nat) : OnlyOffers s (s.offer k) := by
  unfold State.offer
  split
  · exact .of_same rfl rfl
  · split
    · split
      · rename_i it _
        have hdropped (u : State) : OnlyOffers u (u.raise (.refreshDropped it.lane)) :=
          ⟨rfl, u.raise_other (laneGroup_ne_symbols it.lane), u.raise_frozen (by simp [Factor.place])⟩
        have hmarked : OnlyOffers s (s.updItem k Item.forceStale) := .of_same rfl rfl
        exact (hmarked.trans (hdropped _)).trans (.of_same rfl rfl)
      · exact .of_same rfl rfl
    · rcases State.takeRefresh_cases { s with formatter := { s.formatter with queue := s.formatter.queue ++ [k] } } with
        ⟨-, h⟩ | ⟨slot, rest, x, -, -, h⟩ <;> rw [h] <;> exact .of_same rfl rfl

theorem OnlyOffers.offers (ks : List Nat) (s : State) : OnlyOffers s (ks.foldl State.offer s) := by
  induction ks generalizing s with
  | nil => exact .of_same rfl rfl
  | cons k ks ih => exact (OnlyOffers.offer s k).trans (ih _)

/-! ### Raising a factor twice -/

theorem State.raise_group_congr (f : Factor) (h : t.events.groups[g] = s.events.groups[g]) :
    (t.raise f).events.groups[g] = (s.raise f).events.groups[g] := by
  rw [State.raise_events, State.raise_events, EventUnit.record_groups, EventUnit.record_groups, h]

/-- A factor raised again adds nothing. -/
theorem State.raise_again (s : State) (f : Factor) (g : GroupId) :
    ((s.raise f).raise f).events.groups[g] = (s.raise f).events.groups[g] := by
  rw [State.raise_events, EventUnit.record_groups, State.raise_events, EventUnit.record_groups]
  split
  · simp [Group.records, BitVec.or_assoc]
  · rfl

/-! ### The staleness check of a frame start (R86) -/

/-- The symbol is due at the present frame counter. -/
def State.isDue (s : State) (r : SymbolRec) : Bool := r.due s.classes[r.cls].staleTimeout s.clock.counter

/-- The record a check of the symbol leaves. -/
def State.checkedRec (s : State) (r : SymbolRec) : SymbolRec := if s.isDue r then { r with stale := true } else r

theorem State.isDue_congr (hc : t.classes = s.classes) (hk : t.clock = s.clock) (r : SymbolRec) :
    t.isDue r = s.isDue r := by
  rw [State.isDue, hc, hk, State.isDue]

theorem State.isDue_alike {r r' : SymbolRec} (h : r.Alike r') : s.isDue r' = s.isDue r := by rw [h]; rfl

theorem State.checkedRec_alike {r r' : SymbolRec} (h : r.Alike r') : (s.checkedRec r).Alike (s.checkedRec r') := by
  rw [State.checkedRec, State.checkedRec, State.isDue_alike h]
  split
  · exact congrArg (fun x : SymbolRec => { x with stale := true }) h
  · exact h

theorem State.isDue_checkedRec (r : SymbolRec) : s.isDue (s.checkedRec r) = false := by
  unfold State.checkedRec
  split
  · simp [State.isDue, SymbolRec.due]
  · rename_i h; simpa using h

theorem State.checkedRec_checkedRec (r : SymbolRec) : s.checkedRec (s.checkedRec r) = s.checkedRec r := by
  rw [State.checkedRec, State.isDue_checkedRec]; rfl

/-- A symbol that is due becomes stale, its view list is offered, and STALE is raised; no other check acts. -/
theorem State.checkSymbol_cases (s : State) (k : Nat) :
    (∃ r, s.symbol? k = some r ∧ s.isDue r = true ∧ ∃ u,
      OnlyOffers (s.updSymbol k fun r => { r with stale := true }) u ∧ s.checkSymbol k = u.raise .stale) ∨
    (∀ r, s.symbol? k = some r → s.isDue r = false) ∧ s.checkSymbol k = s := by
  cases hr : s.symbol? k with
  | none => exact .inr ⟨by simp, State.checkSymbol_none hr⟩
  | some r =>
    rw [State.checkSymbol_some hr]
    by_cases hd : s.isDue r = true
    · exact .inl ⟨r, rfl, hd, _, .offers _ _, if_pos hd⟩
    · exact .inr ⟨fun r' h => by cases h; simpa using hd, if_neg hd⟩

theorem State.symbol?_checkSymbol (s : State) (k j : Nat) :
    (s.checkSymbol k).symbol? j = (s.symbol? j).map fun r => if j = k then s.checkedRec r else r := by
  rcases s.checkSymbol_cases k with ⟨r, hr, hd, u, w, e⟩ | ⟨hnot, e⟩
  · have hu : (u.raise .stale).symbol? j = (s.updSymbol k fun r => { r with stale := true }).symbol? j := by
      rw [State.symbol?, State.raise_symbols, w.symbols, State.symbol?]
    rw [e, hu, State.symbol?_updSymbol]
    split
    · rename_i hj
      rw [hj, hr, Option.map_some, Option.map_some, State.checkedRec, if_pos hd]
    · simp
  · rw [e]
    cases hr : s.symbol? j with
    | none => rfl
    | some r =>
      rw [Option.map_some]
      split
      · rename_i hj
        rw [State.checkedRec, hnot r (hj ▸ hr), if_neg (by simp)]
      · rfl

/-- The checks of several symbols (R86). -/
theorem checkSymbols_symbol? (ks : List Nat) (s : State) (j : Nat) :
    (ks.foldl State.checkSymbol s).symbol? j = (s.symbol? j).map fun r => if j ∈ ks then s.checkedRec r else r := by
  induction ks generalizing s with
  | nil => simp
  | cons k ks ih =>
    have hrec (r : SymbolRec) : (s.checkSymbol k).checkedRec r = s.checkedRec r := by
      rw [State.checkedRec, State.isDue_congr (LaneWork.checkSymbol s k).classes (LaneWork.checkSymbol s k).clock,
        State.checkedRec]
    rw [List.foldl_cons, ih, State.symbol?_checkSymbol, Option.map_map]
    refine congrArg (Option.map · _) (funext fun r => ?_)
    by_cases hj : j = k <;> by_cases hm : j ∈ ks <;> simp [hj, hm, hrec, State.checkedRec_checkedRec]

/-- Checks of symbols that are not due do nothing. -/
theorem checkSymbols_not_due {ks : List Nat} (h : ∀ k ∈ ks, ∀ r, s.symbol? k = some r → s.isDue r = false) :
    ks.foldl State.checkSymbol s = s := by
  induction ks with
  | nil => rfl
  | cons k ks ih =>
    rcases s.checkSymbol_cases k with ⟨r, hr, hd, -⟩ | ⟨-, e⟩
    · rw [h k List.mem_cons_self r hr] at hd
      cases hd
    · rw [List.foldl_cons, e, ih fun j hj => h j (List.mem_cons_of_mem k hj)]

/-- STALE is raised when one of the symbols checked is due. -/
theorem checkSymbols_due (ks : List Nat) (s : State) (h : ∃ k ∈ ks, ∃ r, s.symbol? k = some r ∧ s.isDue r = true) :
    (ks.foldl State.checkSymbol s).events.groups[(8 : GroupId)] = (s.raise .stale).events.groups[(8 : GroupId)] := by
  induction ks generalizing s with
  | nil => simp at h
  | cons k ks ih =>
    rw [List.foldl_cons]
    rcases s.checkSymbol_cases k with ⟨r, -, -, u, w, e⟩ | ⟨hnot, e⟩
    · have hraised : (s.checkSymbol k).events.groups[(8 : GroupId)] = (s.raise .stale).events.groups[(8 : GroupId)] := by
        rw [e]
        exact State.raise_group_congr .stale w.symbolGroup
      by_cases htail : ∃ j ∈ ks, ∃ r, (s.checkSymbol k).symbol? j = some r ∧ (s.checkSymbol k).isDue r = true
      · rw [ih _ htail, State.raise_group_congr .stale hraised, State.raise_again]
      · rw [checkSymbols_not_due fun j hj r hr => by
          by_contra hd
          exact htail ⟨j, hj, r, hr, by simpa using hd⟩, hraised]
    · obtain ⟨j, hj, r, hr, hd⟩ := h
      rw [e]
      refine ih s ⟨j, (List.mem_cons.mp hj).resolve_left ?_, r, hr, hd⟩
      rintro rfl
      rw [hnot r hr] at hd
      cases hd

/-- A check raises no factor of a lane but REFRESH_DROPPED. -/
theorem checkSymbols_frozen (ks : List Nat) (s : State) (i : LaneId) :
    (ks.foldl State.checkSymbol s).events.groups[laneGroup i].pending.getLsbD 15 =
      s.events.groups[laneGroup i].pending.getLsbD 15 := by
  induction ks generalizing s with
  | nil => rfl
  | cons k ks ih =>
    rw [List.foldl_cons, ih]
    rcases s.checkSymbol_cases k with ⟨r, -, -, u, w, e⟩ | ⟨-, e⟩
    · rw [e, u.raise_frozen (by simp [Factor.place]), w.frozen]
      rfl
    · rw [e]

theorem State.mem_keys_of_symbol? {k : Nat} {r : SymbolRec} (h : s.symbol? k = some r) : k ∈ s.symbols.map Prod.fst :=
  List.mem_map.mpr ⟨_, mem_of_tableFind h, rfl⟩

/-- Every symbol is checked (R86). -/
theorem State.symbol?_checkSymbols (s : State) (k : Nat) : s.checkSymbols.symbol? k = (s.symbol? k).map s.checkedRec := by
  rw [State.checkSymbols, checkSymbols_symbol?]
  cases hr : s.symbol? k with
  | none => rfl
  | some r => rw [Option.map_some, Option.map_some, if_pos (State.mem_keys_of_symbol? hr)]

end

end Sys2Proof.Machine

namespace Sys2Proof.Machine

/-! ### The acts of a frame start, each done once -/

section
variable {s t u : State} {i j : LaneId} {a : FrameAct} {freezing : Bool}

theorem mem_defaultOrder (a : FrameAct) : a ∈ defaultOrder := by
  cases a with
  | lane i => exact lane_mem_defaultOrder i
  | symbols => decide
  | freeze i => revert i; decide

theorem completeOrder_nodup (order : FrameOrder) : (completeOrder order).Nodup :=
  (foldl_once (order ++ defaultOrder) [] List.nodup_nil).1

/-- Every act is done at one place of a completed order. -/
theorem completeOrder_split_at (order : FrameOrder) (a : FrameAct) :
    ∃ before after, completeOrder order = before ++ a :: after ∧ a ∉ before ∧ a ∉ after := by
  have ha : a ∈ completeOrder order :=
    ((foldl_once (order ++ defaultOrder) [] List.nodup_nil).2 a).mpr (.inr (List.mem_append_right _ (mem_defaultOrder a)))
  obtain ⟨before, after, e⟩ := List.append_of_mem ha
  have hsplit : (before ++ a :: after).Nodup := e ▸ completeOrder_nodup order
  rw [List.nodup_append, List.nodup_cons] at hsplit
  obtain ⟨-, ⟨hafter, -⟩, hbefore⟩ := hsplit
  exact ⟨before, after, e, fun h => hbefore a h a List.mem_cons_self rfl, hafter⟩

theorem foldl_once_extends (as acc : FrameOrder) :
    ∃ more, as.foldl (fun acc a => if a ∈ acc then acc else acc ++ [a]) acc = acc ++ more := by
  induction as generalizing acc with
  | nil => exact ⟨[], by simp⟩
  | cons b as ih =>
    rw [List.foldl_cons]
    split
    · exact ih acc
    · obtain ⟨more, e⟩ := ih (acc ++ [b])
      exact ⟨b :: more, by simpa using e⟩

/-- The act listed first is done first. -/
theorem completeOrder_cons (a : FrameAct) (rest : FrameOrder) : ∃ more, completeOrder (a :: rest) = a :: more :=
  foldl_once_extends (rest ++ defaultOrder) [a]

/-! ### Freezing one lane (R147) -/

/-- A lane in OFF, IDLE or FROZEN, which a freeze leaves alone. -/
def Lane.Settled (l : Lane) : Prop := l.state = .off ∨ l.state = .idle ∨ l.state = .frozen

/-- A lane as a freeze that reaches it leaves it. -/
def Lane.froze (l : Lane) : Lane := { l with state := .frozen, velocity := 0, brake := none, dwell := 0, arm := none }

theorem State.freezeLane_settled (h : (s.lane i).Settled) : s.freezeLane i = s := by
  rcases h with h | h | h <;> simp [State.freezeLane, h]

theorem State.freezeLane_reaches (h : ¬ (s.lane i).Settled) :
    s.freezeLane i = (s.setLane i (s.lane i).froze).raise (.frozen i) := by
  unfold State.freezeLane Lane.froze
  unfold Lane.Settled at h
  cases hs : (s.lane i).state <;> simp_all

theorem Lane.Live.not_settled {l : Lane} (h : l.Live) : ¬ l.Settled := by
  rcases h with h | h | h | h <;> simp [Lane.Settled, h]

theorem Lane.Settled.not_armed {l : Lane} (h : l.Settled) : l.state ≠ .armed := by
  rcases h with h | h | h <;> simp [h]

/-- After its freeze a lane is in OFF, IDLE or FROZEN. -/
theorem State.freezeLane_leaves_settled (s : State) (i : LaneId) : ((s.freezeLane i).lane i).Settled := by
  by_cases h : (s.lane i).Settled
  · rwa [State.freezeLane_settled h]
  · rw [State.freezeLane_reaches h, State.raise_lane, State.lane_setLane_same]
    exact .inr (.inr rfl)

/-- A freeze that reaches its lane raises FROZEN. -/
theorem State.freezeLane_raises (h : ¬ (s.lane i).Settled) :
    (s.freezeLane i).events.groups[laneGroup i].pending.getLsbD 15 = true ∧
      (s.freezeLane i).lane i = (s.lane i).froze := by
  rw [State.freezeLane_reaches h]
  exact ⟨(State.raise_pending_getLsbD _ rfl (by omega)).mpr (.inr ⟨rfl, .inl (by omega)⟩), State.lane_setLane_same ..⟩

/-- Another lane and its factors are left alone by a freeze. -/
theorem State.freezeLane_other (s : State) (h : i ≠ j) : (s.freezeLane j).lane i = s.lane i ∧
    (s.freezeLane j).events.groups[laneGroup i] = s.events.groups[laneGroup i] := by
  by_cases hj : (s.lane j).Settled
  · rw [State.freezeLane_settled hj]
    exact ⟨rfl, rfl⟩
  · rw [State.freezeLane_reaches hj]
    exact ⟨s.lane_setLane_ne (Ne.symm h) _, State.raise_other _ (laneGroup_ne h)⟩

theorem State.freezeLane_symbols (s : State) (j : LaneId) : (s.freezeLane j).symbols = s.symbols ∧
    (s.freezeLane j).events.groups[(8 : GroupId)] = s.events.groups[(8 : GroupId)] := by
  by_cases hj : (s.lane j).Settled
  · rw [State.freezeLane_settled hj]
    exact ⟨rfl, rfl⟩
  · rw [State.freezeLane_reaches hj]
    exact ⟨rfl, State.raise_other _ (laneGroup_ne_symbols j)⟩

/-! ### The Symbol Table during a frame start -/

/-- No symbol becomes stale and STALE is not raised. -/
structure KeepsStale (s t : State) : Prop where
  symbols : SymbolsAlike s t
  group : t.events.groups[(8 : GroupId)] = s.events.groups[(8 : GroupId)]

theorem KeepsStale.trans (a : KeepsStale s t) (b : KeepsStale t u) : KeepsStale s u :=
  ⟨a.symbols.trans b.symbols, b.group.trans a.group⟩

theorem KeepsStale.frameAct (s : State) (h : a ≠ .symbols) : KeepsStale s (s.frameAct freezing a) := by
  cases a with
  | lane j => exact ⟨(AnswerOf.answerFrame s j).symbols, (AnswerOf.answerFrame s j).symbolGroup⟩
  | symbols => exact absurd rfl h
  | freeze j =>
    obtain ⟨hs, hg⟩ := s.freezeLane_symbols j
    cases freezing
    · exact ⟨.refl s, rfl⟩
    · exact ⟨.of_symbols hs, hg⟩

theorem KeepsStale.frameActs (freezing : Bool) (as : FrameOrder) (s : State) (h : FrameAct.symbols ∉ as) :
    KeepsStale s (as.foldl (State.frameAct freezing) s) := by
  induction as generalizing s with
  | nil => exact ⟨.refl s, rfl⟩
  | cons a as ih =>
    obtain ⟨ha, has⟩ := not_or.mp (mt List.mem_cons.mpr h)
    exact (KeepsStale.frameAct s (Ne.symm ha)).trans (ih _ has)

theorem KeepsStale.frameBegun (s : State) (at_ : Nat) : KeepsStale s (s.frameBegun at_) :=
  ⟨.of_symbols rfl, State.raise_other { s with clock := _ } (by decide)⟩

theorem KeepsStale.compositorFrame (s : State) : KeepsStale s s.compositorFrame := by
  have hover : (s.raise .overrun).events.groups[(8 : GroupId)] = s.events.groups[(8 : GroupId)] :=
    s.raise_other (by decide)
  unfold State.compositorFrame
  split
  · exact ⟨.of_symbols rfl, rfl⟩
  · dsimp only
    split <;> exact ⟨.of_symbols rfl, hover⟩
  · exact ⟨.refl s, rfl⟩

/-- A frame start checks every symbol once, at the new counter. -/
theorem frameStart_checks (s : State) (order : FrameOrder) (at_ : Nat) :
    ∃ u, KeepsStale s u ∧ LaneWork (s.frameBegun at_) u ∧ KeepsStale u.checkSymbols (s.frameStart order at_) := by
  obtain ⟨before, after, e, hbefore, hafter⟩ := completeOrder_split_at order .symbols
  refine ⟨before.foldl (State.frameAct s.compositor.freezes) (s.frameBegun at_),
    (KeepsStale.frameBegun s at_).trans (.frameActs _ before _ hbefore), .foldl (LaneWork.frameAct _) _ _, ?_⟩
  rw [State.frameStart_eq, State.frameActed, e, List.foldl_append, List.foldl_cons]
  exact (KeepsStale.frameActs _ after _ hafter).trans (.compositorFrame _)

end

/-- The symbols and STALE after a frame start (R86). -/
theorem frameStart_stale (s : State) (order : FrameOrder) (at_ : Nat) (t : State) (ht : t = s.frameStart order at_) :
    (let due := fun r : SymbolRec => 0 < s.classes[r.cls].staleTimeout ∧ r.stale = false ∧
      s.classes[r.cls].staleTimeout ≤ (s.clock.counter + 1 - r.lastUpdate).toNat
     (∀ k, s.symbol? k = none → t.symbol? k = none) ∧
     (∀ k r, s.symbol? k = some r → ∃ (r' : SymbolRec) (stale : Bool), t.symbol? k = some r' ∧
      r' = { r with stale := stale, refCount := r'.refCount, viewList := r'.viewList } ∧
      (stale = true ↔ r.stale = true ∨ due r)) ∧
     ((∃ k r, s.symbol? k = some r ∧ due r) →
      t.events.groups[(8 : GroupId)] = (s.raise .stale).events.groups[(8 : GroupId)]) ∧
     ((∀ k r, s.symbol? k = some r → ¬ due r) → t.events.groups[(8 : GroupId)] = s.events.groups[(8 : GroupId)])) := by
  subst ht
  intro due
  obtain ⟨u, hsu, hw, hut⟩ := frameStart_checks s order at_
  have hdue (r : SymbolRec) : u.isDue r = true ↔ due r := by
    rw [State.isDue, hw.classes, hw.clock]
    exact SymbolRec.due_iff
  refine ⟨fun k hk => ?_, fun k r hr => ?_, fun ⟨k, r, hr, hd⟩ => ?_, fun hnot => ?_⟩
  · exact (hut.symbols k).1 (by rw [State.symbol?_checkSymbols, (hsu.symbols k).1 hk]; rfl)
  · obtain ⟨r1, hr1, e1⟩ := (hsu.symbols k).2 r hr
    obtain ⟨r2, hr2, e2⟩ := (hut.symbols k).2 (u.checkedRec r1) (by rw [State.symbol?_checkSymbols, hr1]; rfl)
    have halike : (u.checkedRec r).Alike r2 := (State.checkedRec_alike e1).trans e2
    refine ⟨r2, (u.checkedRec r).stale, hr2, ?_, ?_⟩
    · rw [halike, State.checkedRec]
      split <;> rfl
    · rw [State.checkedRec, ← hdue]
      split <;> simp_all
  · obtain ⟨r1, hr1, e1⟩ := (hsu.symbols k).2 r hr
    rw [hut.group, State.checkSymbols, checkSymbols_due _ u ⟨k, State.mem_keys_of_symbol? hr1, r1, hr1, by
      rw [State.isDue_alike e1]; exact (hdue r).mpr hd⟩]
    exact State.raise_group_congr .stale hsu.group
  · rw [hut.group, State.checkSymbols, checkSymbols_not_due fun k _ r1 hr1 => ?_, hsu.group]
    cases hr : s.symbol? k with
    | none => rw [(hsu.symbols k).1 hr] at hr1; cases hr1
    | some r =>
      obtain ⟨r', hr', e'⟩ := (hsu.symbols k).2 r hr
      obtain rfl : r' = r1 := Option.some.inj (hr'.symm.trans hr1)
      rw [State.isDue_alike e']
      simpa using mt (hdue r).mp (hnot k r hr)

end Sys2Proof.Machine

namespace Sys2Proof.Machine

/-! ### A lane beside the acts of others -/

/-- From s to t lane i was reached at most by what others do: while run lists and pool agree its run list is kept, and
its FROZEN is not raised. -/
structure Beside (i : LaneId) (s t : State) : Prop where
  reached : (s.lane i).Reached (t.lane i)
  lists : s.Lists → t.Lists
  shown : s.Lists → (t.lane i).visible = (s.lane i).visible ∧ (t.lane i).queued = (s.lane i).queued
  frozen : t.events.groups[laneGroup i].pending.getLsbD 15 = s.events.groups[laneGroup i].pending.getLsbD 15

section
variable {s t u : State} {i j : LaneId} {a : FrameAct} {l l' : Lane}

theorem Beside.refl (i : LaneId) (s : State) : Beside i s s := ⟨.refl _, id, fun _ => ⟨rfl, rfl⟩, rfl⟩

theorem Beside.trans (a : Beside i s t) (b : Beside i t u) : Beside i s u := by
  refine ⟨a.reached.trans b.reached, b.lists ∘ a.lists, fun h => ?_, b.frozen.trans a.frozen⟩
  obtain ⟨hv, hq⟩ := a.shown h
  obtain ⟨hv', hq'⟩ := b.shown (a.lists h)
  exact ⟨hv'.trans hv, hq'.trans hq⟩

/-- A lane that is kept. -/
theorem Beside.of_kept (hl : t.lane i = s.lane i) (hlists : s.Lists → t.Lists)
    (hf : t.events.groups[laneGroup i].pending.getLsbD 15 = s.events.groups[laneGroup i].pending.getLsbD 15) :
    Beside i s t :=
  ⟨by rw [hl]; exact .refl _, hlists, fun _ => by rw [hl]; exact ⟨rfl, rfl⟩, hf⟩

/-- A sublist that lost no element of a list that names none twice. -/
theorem sublist_eq_of_subset {as bs : List Nat} (h : bs.Sublist as) (hn : as.Nodup) (hs : as ⊆ bs) : bs = as :=
  h.eq_of_length_le (List.subperm_of_subset hn hs).length_le

/-- Work of another lane takes no item from a run list that agrees with the pool before and after it. -/
theorem WorkOf.shown {o : Option LaneId} (w : WorkOf True o s t) (ho : o ≠ some i) (hs : s.Lists) (ht : t.Lists)
    (hr : (s.lane i).Reached (t.lane i)) :
    (t.lane i).visible = (s.lane i).visible ∧ (t.lane i).queued = (s.lane i).queued := by
  have hsub : (t.lane i).visible.Sublist (s.lane i).visible ∧ (t.lane i).queued.Sublist (s.lane i).queued := by
    rcases hr with h | ⟨a, m, -, -, hm, hl⟩
    · exact ⟨h.visible, h.queued⟩
    · have hv := hl.visible
      have hq := hl.queued
      rw [Lane.begun_visible] at hv
      rw [Lane.begun_queued] at hq
      exact ⟨hv.trans hm.visible, hq.trans hm.queued⟩
  have hlike := w.items i ho trivial hs.listsAgree.ownLists
  have hcell {it it' : Item} (h : StaleLike it it') : it'.cell.isSome = it.cell.isSome := by
    rcases h with rfl | rfl
    · rfl
    · exact Option.isSome_map
  obtain ⟨hv, hq, -⟩ := List.nodup_append.mp (hs.once i)
  refine ⟨sublist_eq_of_subset hsub.1 hv fun k hk => ?_, sublist_eq_of_subset hsub.2 hq fun k hk => ?_⟩
  · obtain ⟨it, hit, hlane, hc⟩ := any_onScreen.mp ((hs.visible i k).mp hk)
    obtain ⟨it', hit', e⟩ := hlike k it hit hlane
    exact (ht.visible i k).mpr (any_onScreen.mpr ⟨it', hit', e.lane.trans hlane, (hcell e).trans hc⟩)
  · obtain ⟨it, hit, hlane, hc⟩ := any_waits.mp ((hs.queued i k).mp hk)
    obtain ⟨it', hit', e⟩ := hlike k it hit hlane
    refine (ht.queued i k).mpr (any_waits.mpr ⟨it', hit', e.lane.trans hlane, ?_⟩)
    simpa [hc] using hcell e

theorem frameAct_lists (freezing : Bool) (a : FrameAct) (h : s.Lists) : (s.frameAct freezing a).Lists :=
  (Agree.frameAct (G := False) ⟨h, False.elim⟩ freezing a).lists

/-- An act that is neither the answer of lane i nor its freeze. -/
theorem Beside.frameAct (s : State) (hl : a ≠ .lane i) (hf : a ≠ .freeze i) : Beside i s (s.frameAct true a) := by
  have hlists : s.Lists → (s.frameAct true a).Lists := frameAct_lists true a
  cases a with
  | lane j =>
    have hj : i ≠ j := fun e => hl (congrArg FrameAct.lane e.symm)
    have w := AnswerOf.answerFrame s j
    have hreached := w.others i hj
    have hother : some j ≠ some i := fun e => hj (Option.some.inj e).symm
    exact ⟨hreached, hlists, fun h => (WorkOf.answerFrame s j).shown hother h (hlists h) hreached, w.frozen i⟩
  | symbols => exact .of_kept (State.lane_congr s.checkSymbols_lanes i) hlists (checkSymbols_frozen _ s i)
  | freeze j =>
    obtain ⟨hlane, hgroup⟩ := s.freezeLane_other (i := i) (j := j) fun e => hf (congrArg FrameAct.freeze e.symm)
    exact .of_kept hlane hlists (congrArg (fun g : Group => g.pending.getLsbD 15) hgroup)

theorem Beside.frameActs (as : FrameOrder) (s : State) (hl : FrameAct.lane i ∉ as) (hf : FrameAct.freeze i ∉ as) :
    Beside i s (as.foldl (State.frameAct true) s) := by
  induction as generalizing s with
  | nil => exact .refl i s
  | cons a as ih =>
    obtain ⟨ha, hl'⟩ := not_or.mp (mt List.mem_cons.mpr hl)
    obtain ⟨hb, hf'⟩ := not_or.mp (mt List.mem_cons.mpr hf)
    exact (Beside.frameAct s (Ne.symm ha) (Ne.symm hb)).trans (ih _ hl' hf')

/-- A settled lane is left alone by every act, its own answer and its freeze too. -/
theorem Beside.settledAct (s : State) (h : (s.lane i).Settled) (a : FrameAct) : Beside i s (s.frameAct true a) := by
  by_cases hl : a = .lane i
  · subst hl
    rw [State.frameAct, answerFrame_of_bare h]
    exact .refl i s
  · by_cases hf : a = .freeze i
    · subst hf
      rw [State.frameAct, if_pos rfl, State.freezeLane_settled h]
      exact .refl i s
    · exact .frameAct s hl hf

theorem Lane.Settled.reached (h : l.Settled) (hr : l.Reached l') : l'.Settled := by
  rw [Lane.Settled, (hr.sheds h.not_armed).state]
  exact h

theorem Beside.settledActs (as : FrameOrder) (s : State) (h : (s.lane i).Settled) :
    Beside i s (as.foldl (State.frameAct true) s) := by
  induction as generalizing s with
  | nil => exact .refl i s
  | cons a as ih =>
    have ha := Beside.settledAct s h a
    exact ha.trans (ih _ (h.reached ha.reached))

/-- A lane that is kept, or started from ARMED. -/
theorem Beside.lane (w : Beside i s t) (h : s.Lists) :
    t.lane i = s.lane i ∨
      ∃ a, (s.lane i).state = .armed ∧ (s.lane i).arm = some a ∧ t.lane i = (s.lane i).begun a.returns :=
  let ⟨hv, hq⟩ := w.shown h
  w.reached.kept hv hq

theorem Beside.lane_eq (w : Beside i s t) (h : s.Lists) (hs : (s.lane i).state ≠ .armed) : t.lane i = s.lane i :=
  (w.lane h).resolve_right fun ⟨_, harmed, _⟩ => hs harmed

theorem Beside.frameBegun (s : State) (at_ : Nat) (i : LaneId) : Beside i s (s.frameBegun at_) :=
  .of_kept rfl (fun h => (Agree.of_stock (G := False) (t := s.frameBegun at_) ⟨h, False.elim⟩ rfl).lists)
    (State.raise_frozen { s with clock := _ } (by simp [Factor.place]) i)

theorem Beside.compositorFrame (s : State) (i : LaneId) : Beside i s s.compositorFrame := by
  have hgroup : Factor.overrun.group ≠ laneGroup i := by revert i; decide
  have hover : (s.raise .overrun).events.groups[laneGroup i] = s.events.groups[laneGroup i] :=
    s.raise_other (Ne.symm hgroup)
  refine .of_kept (State.lane_congr s.compositorFrame_lanes i)
    (fun h => (Agree.of_stock (G := False) ⟨h, False.elim⟩ s.compositorFrame_stock).lists)
    (congrArg (fun g : Group => g.pending.getLsbD 15) ?_)
  unfold State.compositorFrame
  split
  · rfl
  · dsimp only
    split <;> exact hover
  · rfl

end

/-! ### A frame start that freezes the output (R147) -/

section
variable {s t u v : State} {i : LaneId} {order : FrameOrder} {at_ : Nat}

/-- What follows the freeze of a lane leaves it settled, as the freeze left it. -/
theorem Beside.afterFreeze (after : FrameOrder) (v : State) (i : LaneId) :
    Beside i (v.freezeLane i) (after.foldl (State.frameAct true) (v.freezeLane i)).compositorFrame :=
  (Beside.settledActs after _ (v.freezeLane_leaves_settled i)).trans (.compositorFrame _ i)

/-- The freeze of lane i meets a state v that others alone have made of s, or that they have made around one answer
of lane i. -/
def FreezeMeets (i : LaneId) (s v : State) : Prop :=
  Beside i s v ∨ ∃ u, Beside i s u ∧ Beside i (u.answerFrame i) v

/-- A frame start that freezes reaches lane i with its freeze in a state v. -/
theorem frameStart_freezes (hf : s.compositor.freezes = true) (order : FrameOrder) (at_ : Nat) (i : LaneId) :
    ∃ v, FreezeMeets i s v ∧ Beside i (v.freezeLane i) (s.frameStart order at_) := by
  obtain ⟨before, after, e, hfreeze, -⟩ := completeOrder_split_at order (.freeze i)
  refine ⟨before.foldl (State.frameAct true) (s.frameBegun at_), ?_, ?_⟩
  · by_cases hl : FrameAct.lane i ∈ before
    · obtain ⟨b, c, rfl⟩ := List.append_of_mem hl
      have hnodup : (b ++ FrameAct.lane i :: c).Nodup := (List.nodup_append.mp (e ▸ completeOrder_nodup order)).1
      rw [List.nodup_append, List.nodup_cons] at hnodup
      obtain ⟨-, ⟨hc, -⟩, hb⟩ := hnodup
      rw [List.mem_append, List.mem_cons, not_or, not_or] at hfreeze
      rw [List.foldl_append, List.foldl_cons]
      exact .inr ⟨_, (Beside.frameBegun s at_ i).trans
        (.frameActs b _ (fun h => hb _ h _ List.mem_cons_self rfl) hfreeze.1), .frameActs c _ hc hfreeze.2.2⟩
    · exact .inl ((Beside.frameBegun s at_ i).trans (.frameActs before _ hl hfreeze))
  · rw [State.frameStart_eq, State.frameActed, hf, e, List.foldl_append, List.foldl_cons]
    exact .afterFreeze after _ i

/-- A freeze listed first meets the state in which the frame start begins. -/
theorem frameStart_freezes_first (hf : s.compositor.freezes = true) (rest : FrameOrder) (at_ : Nat) (i : LaneId) :
    Beside i ((s.frameBegun at_).freezeLane i) (s.frameStart (.freeze i :: rest) at_) := by
  obtain ⟨more, e⟩ := completeOrder_cons (.freeze i) rest
  rw [State.frameStart_eq, State.frameActed, hf, e, List.foldl_cons]
  exact .afterFreeze more _ i

/-- An answer listed first is given in the state in which the frame start begins. -/
theorem frameStart_answers_first (hf : s.compositor.freezes = true) (rest : FrameOrder) (at_ : Nat) (i : LaneId) :
    ∃ v, Beside i ((s.frameBegun at_).answerFrame i) v ∧
      Beside i (v.freezeLane i) (s.frameStart (.lane i :: rest) at_) := by
  obtain ⟨more, e⟩ := completeOrder_cons (.lane i) rest
  obtain ⟨before, after, e', hfreeze, -⟩ := completeOrder_split_at (.lane i :: rest) (.freeze i)
  have hnodup := completeOrder_nodup (.lane i :: rest)
  cases before with
  | nil => rw [e] at e'; cases e'
  | cons b before =>
    obtain ⟨rfl, rfl⟩ : .lane i = b ∧ more = before ++ .freeze i :: after := by simpa [e] using e'
    rw [e] at hnodup
    refine ⟨before.foldl (State.frameAct true) ((s.frameBegun at_).answerFrame i), .frameActs before _ (fun h => ?_)
      (fun h => hfreeze (List.mem_cons_of_mem _ h)), ?_⟩
    · exact (List.nodup_cons.mp hnodup).1 (List.mem_append_left _ h)
    · rw [State.frameStart_eq, State.frameActed, hf, e, List.foldl_cons, List.foldl_append, List.foldl_cons]
      exact .afterFreeze after _ i

end

end Sys2Proof.Machine

namespace Sys2Proof.Machine

/-! ### What a freeze leaves of a lane, by the state the frame start finds it in (R4, R147) -/

/-- A lane whose start its empty run list completed at once, in IDLE (R19). -/
def Lane.IdledFrom (l m : Lane) : Prop :=
  l.visible = [] ∧ l.queued = [] ∧ l.setup.onEmpty = .stop ∧ (∃ a, l.arm = some a ∧ a.returns = .idle) ∧
    m = { l with state := .idle, clearing := false, arm := none }

section
variable {s t u v : State} {i : LaneId} {l : Lane} {a : Arm}

theorem FreezeMeets.lists (m : FreezeMeets i s v) (h : s.Lists) : v.Lists := by
  rcases m with w | ⟨u, w, w'⟩
  · exact w.lists h
  · exact w'.lists (frameAct_lists true (.lane i) (w.lists h))

theorem FreezeMeets.frozen (m : FreezeMeets i s v) :
    v.events.groups[laneGroup i].pending.getLsbD 15 = s.events.groups[laneGroup i].pending.getLsbD 15 := by
  rcases m with w | ⟨u, w, w'⟩
  · exact w.frozen
  · exact w'.frozen.trans (((AnswerOf.answerFrame u i).frozen i).trans w.frozen)

/-- The freeze does nothing to a settled lane. -/
theorem frozen_of_settled (m : FreezeMeets i s v) (w : Beside i (v.freezeLane i) t) (h : s.Lists)
    (hv : (v.lane i).Settled) :
    t.lane i = v.lane i ∧
      t.events.groups[laneGroup i].pending.getLsbD 15 = s.events.groups[laneGroup i].pending.getLsbD 15 := by
  rw [State.freezeLane_settled hv] at w
  exact ⟨w.lane_eq (m.lists h) hv.not_armed, w.frozen.trans m.frozen⟩

/-- The freeze reaches every other lane. -/
theorem frozen_of_not_settled (w : Beside i (v.freezeLane i) t) (h : v.Lists) (hv : ¬ (v.lane i).Settled) :
    t.events.groups[laneGroup i].pending.getLsbD 15 = true ∧ t.lane i = (v.lane i).froze := by
  obtain ⟨hraised, hlane⟩ := State.freezeLane_raises hv
  refine ⟨w.frozen.trans hraised, (w.lane_eq (frameAct_lists true (.freeze i) h) ?_).trans hlane⟩
  exact (v.freezeLane_leaves_settled i).not_armed

/-- A settled lane has no answer. -/
theorem FreezeMeets.lane_of_settled (m : FreezeMeets i s v) (h : s.Lists) (hs : (s.lane i).Settled) :
    v.lane i = s.lane i := by
  rcases m with w | ⟨u, w, w'⟩
  · exact w.lane_eq h hs.not_armed
  · have hu := w.lane_eq h hs.not_armed
    rw [answerFrame_of_bare (by rw [hu]; exact hs)] at w'
    rw [w'.lane_eq (w.lists h) (by rw [hu]; exact hs.not_armed), hu]

/-- An answer leaves a live lane live. -/
theorem FreezeMeets.live (m : FreezeMeets i s v) (h : s.Lists) (hs : (s.lane i).Live) : (v.lane i).Live := by
  rcases m with w | ⟨u, w, w'⟩
  · rwa [w.lane_eq h hs.not_armed]
  · have hu : (u.lane i).Live := by rwa [w.lane_eq h hs.not_armed]
    have ha := (AnswerOf.answerFrame u i).live hu
    rwa [w'.lane_eq (frameAct_lists true (.lane i) (w.lists h)) ha.not_armed]

/-- A lane in HELD or STOPPED answers in what a freeze sets anyway. -/
theorem answerFrame_froze (hs : (u.lane i).state = .held ∨ (u.lane i).state = .stopped) :
    ((u.answerFrame i).lane i).froze = (u.lane i).froze := by
  rcases hs with hs | hs
  · rcases Nat.lt_or_ge 1 (u.lane i).dwell with hd | hd
    · rw [answerFrame_of_dwelling hs hd, State.lane_updLane_same, State.flashPart_lane]
      rfl
    · rw [answerFrame_of_dwelled hs hd, State.endHold, State.raise_lane, State.lane_updLane_same, State.flashPart_lane]
      rfl
  · rw [answerFrame_lane_of_still (by simp [hs])]

theorem FreezeMeets.froze (m : FreezeMeets i s v) (h : s.Lists)
    (hs : (s.lane i).state = .held ∨ (s.lane i).state = .stopped) :
    (v.lane i).froze = (s.lane i).froze := by
  have hlive : (s.lane i).Live := .inr (.inr hs)
  rcases m with w | ⟨u, w, w'⟩
  · rw [w.lane_eq h hlive.not_armed]
  · have hu := w.lane_eq h hlive.not_armed
    have ha := (AnswerOf.answerFrame u i).live (by rwa [hu])
    rw [w'.lane_eq (frameAct_lists true (.lane i) (w.lists h)) ha.not_armed, answerFrame_froze (by rwa [hu]), hu]

/-! ### ARMED -/

/-- A start from ARMED leaves a live lane, unless its empty run list completes it at once into IDLE. -/
theorem Lane.begun_live_or_idled (ha : l.arm = some a) : (l.begun a.returns).Live ∨ l.IdledFrom (l.begun a.returns) := by
  by_cases hd : l.drains
  · rw [Lane.begun_of_drains hd]
    by_cases hr : a.returns = .idle
    · rw [if_pos hr]
      obtain ⟨hv, hq, he⟩ := hd
      exact .inr ⟨hv, hq, he, ⟨a, ha, hr⟩, rfl⟩
    · rw [if_neg hr]
      exact .inl (.of_stopped rfl)
  · rw [Lane.begun_of_not_drains hd]
    exact .inl (.inl rfl)

theorem Lane.IdledFrom.settled {m : Lane} (h : l.IdledFrom m) : m.Settled := by
  obtain ⟨-, -, -, -, rfl⟩ := h
  exact .inr (.inl rfl)

/-- An ARMED lane's own answer, which may start it. -/
theorem answerFrame_lane_of_armed (hs : (u.lane i).state = .armed) : (u.answerFrame i).lane i = u.lane i ∨
    ∃ a, (u.lane i).arm = some a ∧ (u.answerFrame i).lane i = (u.lane i).begun a.returns := by
  have hlane : (u.armedFlash i).lane i = u.lane i := State.lane_congr (u.armedFlash_lanes i) i
  rw [answerFrame_of_armed hs]
  split
  · cases ha : (u.lane i).arm with
    | none => exact .inl (by simp [State.startArmed, hlane, ha])
    | some a =>
      refine .inr ⟨a, rfl, ?_⟩
      rw [State.startArmed_eq (by rwa [hlane]) (by rwa [hlane]), State.raise_lane, State.lane_setLane_same, hlane]
  · exact .inl hlane

/-- From ARMED: kept, live, or in IDLE by a start completed at once. -/
def Lane.ArmedTo (l m : Lane) : Prop := m = l ∨ m.Live ∨ l.IdledFrom m

theorem Lane.ArmedTo.begun (ha : l.arm = some a) : l.ArmedTo (l.begun a.returns) := .inr (Lane.begun_live_or_idled ha)

theorem Beside.armedTo (w : Beside i s t) (h : s.Lists) (hl : l.ArmedTo (s.lane i)) :
    l.ArmedTo (t.lane i) := by
  rcases hl with hl | hl | hl
  · rcases w.lane h with e | ⟨a, -, harm, e⟩
    · exact .inl (e.trans hl)
    · rw [e, hl]
      exact .begun (hl ▸ harm)
  · exact .inr (.inl (by rwa [w.lane_eq h hl.not_armed]))
  · exact .inr (.inr (by rwa [w.lane_eq h hl.settled.not_armed]))

theorem answerFrame_armedTo (ha : l.state = .armed) (hl : l.ArmedTo (u.lane i)) :
    l.ArmedTo ((u.answerFrame i).lane i) := by
  rcases hl with hl | hl | hl
  · rcases answerFrame_lane_of_armed (u := u) (i := i) (by rwa [hl]) with e | ⟨a, harm, e⟩
    · exact .inl (e.trans hl)
    · rw [e, hl]
      exact .begun (hl ▸ harm)
  · exact .inr (.inl ((AnswerOf.answerFrame u i).live hl))
  · rw [answerFrame_of_bare hl.settled]
    exact .inr (.inr hl)

theorem FreezeMeets.armedTo (m : FreezeMeets i s v) (h : s.Lists) (hs : (s.lane i).state = .armed) :
    (s.lane i).ArmedTo (v.lane i) := by
  rcases m with w | ⟨u, w, w'⟩
  · exact w.armedTo h (.inl rfl)
  · exact w'.armedTo (frameAct_lists true (.lane i) (w.lists h)) (answerFrame_armedTo hs (w.armedTo h (.inl rfl)))

end

/-! ### The frame start that freezes -/

section
variable {s t v : State} {order rest : FrameOrder} {at_ : Nat} {i : LaneId}

theorem frameStart_settles (hf : s.compositor.freezes = true) (order : FrameOrder) (at_ : Nat) (i : LaneId) :
    ((s.frameStart order at_).lane i).Settled := by
  obtain ⟨v, -, w⟩ := frameStart_freezes hf order at_ i
  exact (v.freezeLane_leaves_settled i).reached w.reached

/-- OFF, IDLE and FROZEN are unchanged. -/
theorem frameStart_freeze_settled (hf : s.compositor.freezes = true) (h : s.Lists) (hs : (s.lane i).Settled) :
    (s.frameStart order at_).lane i = s.lane i ∧
      (s.frameStart order at_).events.groups[laneGroup i].pending.getLsbD 15 =
        s.events.groups[laneGroup i].pending.getLsbD 15 := by
  obtain ⟨v, m, w⟩ := frameStart_freezes hf order at_ i
  have hv := m.lane_of_settled h hs
  rw [← hv]
  exact frozen_of_settled m w h (by rwa [hv])

/-- RUN, BRAKE, HELD and STOPPED are frozen. -/
theorem frameStart_freeze_live (hf : s.compositor.freezes = true) (h : s.Lists) (hs : (s.lane i).Live) :
    (s.frameStart order at_).events.groups[laneGroup i].pending.getLsbD 15 = true ∧
      (∃ m : Lane, (s.frameStart order at_).lane i = m.froze) ∧
      ((s.lane i).state = .held ∨ (s.lane i).state = .stopped → (s.frameStart order at_).lane i = (s.lane i).froze) := by
  obtain ⟨v, m, w⟩ := frameStart_freezes hf order at_ i
  obtain ⟨hraised, hlane⟩ := frozen_of_not_settled w (m.lists h) (m.live h hs).not_settled
  exact ⟨hraised, ⟨_, hlane⟩, fun hst => hlane.trans (m.froze h hst)⟩

/-- A freeze that comes first freezes the old state. -/
theorem frameStart_freeze_first (hf : s.compositor.freezes = true) (h : s.Lists) (hs : ¬ (s.lane i).Settled) :
    (s.frameStart (.freeze i :: rest) at_).events.groups[laneGroup i].pending.getLsbD 15 = true ∧
      (s.frameStart (.freeze i :: rest) at_).lane i = (s.lane i).froze :=
  frozen_of_not_settled (v := s.frameBegun at_) (frameStart_freezes_first hf rest at_ i)
    ((Beside.frameBegun s at_ i).lists h) hs

/-- A freeze that comes after the lane's answer, which comes first, freezes the state the answer left. -/
theorem frameStart_freeze_answered (hf : s.compositor.freezes = true) (h : s.Lists) (hs : (s.lane i).Live) :
    (s.frameStart (.lane i :: rest) at_).lane i = (((s.frameBegun at_).answerFrame i).lane i).froze := by
  obtain ⟨v, w, w'⟩ := frameStart_answers_first hf rest at_ i
  have hlists := frameAct_lists true (.lane i) ((Beside.frameBegun s at_ i).lists h)
  have hlive := (AnswerOf.answerFrame (s.frameBegun at_) i).live hs
  have hv := w.lane_eq hlists hlive.not_armed
  rw [← hv]
  exact (frozen_of_not_settled w' (w.lists hlists) (hv ▸ hlive).not_settled).2

/-- ARMED is frozen too, unless a start completed at once took the lane to IDLE before. -/
theorem frameStart_freeze_armed (hf : s.compositor.freezes = true) (h : s.Lists) (hs : (s.lane i).state = .armed) :
    ((s.frameStart order at_).events.groups[laneGroup i].pending.getLsbD 15 = true ∧
      ∃ m : Lane, (s.frameStart order at_).lane i = m.froze) ∨
    ((s.frameStart order at_).events.groups[laneGroup i].pending.getLsbD 15 =
        s.events.groups[laneGroup i].pending.getLsbD 15 ∧
      (s.lane i).IdledFrom ((s.frameStart order at_).lane i)) := by
  obtain ⟨v, m, w⟩ := frameStart_freezes hf order at_ i
  have reached (hv : ¬ (v.lane i).Settled) := frozen_of_not_settled w (m.lists h) hv
  rcases m.armedTo h hs with hv | hv | hv
  · obtain ⟨hraised, hlane⟩ := reached (by rw [hv]; simp [Lane.Settled, hs])
    exact .inl ⟨hraised, _, hlane⟩
  · obtain ⟨hraised, hlane⟩ := reached hv.not_settled
    exact .inl ⟨hraised, _, hlane⟩
  · obtain ⟨hlane, hkept⟩ := frozen_of_settled m w h hv.settled
    exact .inr ⟨hkept, by rwa [hlane]⟩

end

/-! ### FROZEN without a freeze -/

/-- Only a freeze raises FROZEN. -/
theorem frameStart_keeps_frozen {s : State} (hf : s.compositor.freezes = false)
    (order : FrameOrder) (at_ : Nat) (i : LaneId) :
    (s.frameStart order at_).events.groups[laneGroup i].pending.getLsbD 15 =
      s.events.groups[laneGroup i].pending.getLsbD 15 := by
  have acts (as : FrameOrder) (u : State) :
      (as.foldl (State.frameAct false) u).events.groups[laneGroup i].pending.getLsbD 15 =
        u.events.groups[laneGroup i].pending.getLsbD 15 := by
    induction as generalizing u with
    | nil => rfl
    | cons a as ih =>
      rw [List.foldl_cons, ih]
      cases a with
      | lane j => exact (AnswerOf.answerFrame u j).frozen i
      | symbols => exact checkSymbols_frozen _ u i
      | freeze j => rfl
  rw [State.frameStart_eq, (Beside.compositorFrame _ i).frozen, State.frameActed, hf, acts,
    (Beside.frameBegun s at_ i).frozen]

end Sys2Proof.Machine

namespace Sys2Proof.Machine

/-! ### What a frame start keeps, and its own factors (R130) -/

section
variable {s t u : State}

theorem FrameKeeps.trans (a : FrameKeeps s t) (b : FrameKeeps t u) : FrameKeeps s u where
  inReset := b.inReset.trans a.inReset
  link := b.link.trans a.link
  gpi := b.gpi.trans a.gpi
  classes := b.classes.trans a.classes
  templates := b.templates.trans a.templates
  faces := b.faces.trans a.faces
  texts := b.texts.trans a.texts
  symbols := b.symbols.trans a.symbols
  palette := b.palette.trans a.palette
  policy := b.policy.trans a.policy
  output := b.output.trans a.output
  setup i := (b.setup i).trans (a.setup i)
  speed i h := by
    obtain ⟨h1, h2, h3⟩ := a.speed i h
    obtain ⟨h1', h2', h3'⟩ := b.speed i h1
    exact ⟨h1', h2'.trans h2, h3'.trans h3⟩
  travel i := le_trans (le_min (a.travel i) (Nat.min_le_right _ _)) (b.travel i)
  enables g := ⟨(b.enables g).1.trans (a.enables g).1, (b.enables g).2.trans (a.enables g).2⟩
  mask := b.mask.trans a.mask
  pending := b.pending.trans a.pending

/-- The work of lanes and of the Symbol Table. -/
theorem LaneWork.frameKeeps (w : LaneWork s t) : FrameKeeps s t where
  inReset := w.inReset
  link := w.link
  gpi := w.gpi
  classes := w.classes
  templates := w.templates
  faces := w.faces
  texts := w.texts
  symbols := w.symbols
  palette := by rw [w.compositor]
  policy := by rw [w.compositor]
  output := by rw [w.compositor]
  setup := w.setup
  speed := w.speed
  travel := w.travel
  enables := w.enables
  mask := w.mask
  pending := w.pending

/-- A clock set, a factor raised, and the Compositor's state and composition in flight changed. -/
theorem FrameKeeps.of_rest (h : t = { s with clock := t.clock, compositor := t.compositor, events := t.events })
    (hc : t.compositor.palette = s.compositor.palette ∧ t.compositor.policy = s.compositor.policy ∧
      t.compositor.output = s.compositor.output)
    (he : ∀ g : GroupId, t.events.groups[g].enable = s.events.groups[g].enable ∧
      t.events.groups[g].level = s.events.groups[g].level) (hm : t.events.mask = s.events.mask) : FrameKeeps s t := by
  obtain ⟨hpalette, hpolicy, houtput⟩ := hc
  have hlane (i : LaneId) : t.lane i = s.lane i := State.lane_congr (by rw [h]) i
  constructor
  case palette => exact hpalette
  case policy => exact hpolicy
  case output => exact houtput
  case enables => exact he
  case mask => exact hm
  case setup => exact fun i => by rw [hlane]
  case speed => exact fun i hs => by rw [hlane]; exact ⟨hs, rfl, rfl⟩
  case travel => exact fun i => by rw [hlane]; exact Nat.min_le_left _ _
  all_goals rw [h]

theorem FrameKeeps.frameBegun (s : State) (at_ : Nat) : FrameKeeps s (s.frameBegun at_) :=
  .of_rest rfl ⟨rfl, rfl, rfl⟩ (fun g => ⟨s.raise_enable .frame g, s.raise_level .frame g⟩) rfl

/-- The Compositor's answer raises OVERRUN in COMPOSING and no factor else. -/
theorem compositorFrame_events (s : State) : s.compositorFrame.events =
    if s.compositor.state = .composing then (s.raise .overrun).events else s.events := by
  unfold State.compositorFrame
  split <;> rename_i hs
  · simp [hs]
  · dsimp only; split <;> simp [hs]
  · simp [hs]

theorem FrameKeeps.compositorFrame (s : State) : FrameKeeps s s.compositorFrame := by
  have henables (g : GroupId) : s.compositorFrame.events.groups[g].enable = s.events.groups[g].enable ∧
      s.compositorFrame.events.groups[g].level = s.events.groups[g].level := by
    rw [compositorFrame_events]
    split
    · exact ⟨s.raise_enable _ g, s.raise_level _ g⟩
    · exact ⟨rfl, rfl⟩
  have hmask : s.compositorFrame.events.mask = s.events.mask := by
    rw [compositorFrame_events]
    split <;> rfl
  refine .of_rest ?_ ?_ henables hmask
  all_goals
    unfold State.compositorFrame
    split
    · simp
    · dsimp only; split <;> simp [State.raise]
    · simp

theorem FrameKeeps.frameStart (s : State) (order : FrameOrder) (at_ : Nat) : FrameKeeps s (s.frameStart order at_) :=
  ((FrameKeeps.frameBegun s at_).trans (s.frameActed_work order at_).frameKeeps).trans (.compositorFrame _)

/-! ### FRAME and OVERRUN -/

theorem State.frameActed_compositor (s : State) (order : FrameOrder) (at_ : Nat) :
    (s.frameActed order at_).compositor = s.compositor := (s.frameActed_work order at_).compositor

theorem frameStart_timingGroup (s : State) (order : FrameOrder) (at_ : Nat) :
    (s.frameStart order at_).events.groups[(0 : GroupId)] = (s.raise .frame).events.groups[(0 : GroupId)] := by
  have hacted : (s.frameActed order at_).events.groups[(0 : GroupId)] = (s.raise .frame).events.groups[(0 : GroupId)] :=
    (s.frameActed_work order at_).timing
  rw [State.frameStart_eq, compositorFrame_events]
  split
  · rw [State.raise_other _ (by decide), hacted]
  · exact hacted

theorem frameStart_outputGroup (s : State) (order : FrameOrder) (at_ : Nat) :
    (s.frameStart order at_).events.groups[(1 : GroupId)] =
      (if s.compositor.state = .composing then (s.raise .overrun).events else s.events).groups[(1 : GroupId)] := by
  have hacted : (s.frameActed order at_).events.groups[(1 : GroupId)] = s.events.groups[(1 : GroupId)] :=
    (s.frameActed_work order at_).output.trans (State.raise_other s (f := .frame) (by decide))
  rw [State.frameStart_eq, compositorFrame_events, State.frameActed_compositor]
  split
  · exact State.raise_group_congr .overrun hacted
  · exact hacted

/-! ### The latch (R143, R113) -/

/-- What a snapshot reads. -/
theorem State.snapshot_congr (hl : t.lanes = s.lanes) (hp : t.pool = s.pool) (hy : t.symbols = s.symbols)
    (hf : t.formatter = s.formatter) (hc : t.compositor.palette = s.compositor.palette) : t.snapshot = s.snapshot := by
  have hlane (i : LaneId) : t.lane i = s.lane i := State.lane_congr hl i
  have hitem (k : Nat) : t.item? k = s.item? k := by rw [State.item?, hp, State.item?]
  have hsymbol (k : Nat) : t.symbol? k = s.symbol? k := by rw [State.symbol?, hy, State.symbol?]
  have hcolour (i : LaneId) (it : Item) (c : Cell) : t.cellColour i it c = s.cellColour i it c := by
    simp only [State.cellColour, State.laneTemplate, hlane, hf, hsymbol]
  have hshots (i : LaneId) : t.cellShots i = s.cellShots i := by
    simp only [State.cellShots, hlane, hitem, hcolour]
  have hshot : t.laneShot = s.laneShot := funext fun i => by
    simp only [State.laneShot, hlane, hshots]
  simp only [State.snapshot, hc, hlane, hshot]

/-- In IDLE the Compositor latches the state the answers left. -/
theorem frameStart_latches (order : FrameOrder) (at_ : Nat) (h : s.compositor.state = .idle) :
    (s.frameStart order at_).compositor =
      { s.compositor with state := .composing, inFlight := some (s.frameStart order at_).snapshot } := by
  have hstate : (s.frameActed order at_).compositor.state = .idle := by rw [State.frameActed_compositor, h]
  have e : s.frameStart order at_ = { s.frameActed order at_ with
      compositor := { s.compositor with state := .composing, inFlight := some (s.frameActed order at_).snapshot } } := by
    rw [State.frameStart_eq, State.compositorFrame, hstate, State.frameActed_compositor]
  have hshot : (s.frameStart order at_).snapshot = (s.frameActed order at_).snapshot :=
    State.snapshot_congr (by rw [e]) (by rw [e]) (by rw [e]) (by rw [e]) (by rw [e, State.frameActed_compositor])
  rw [hshot, e]

theorem frameStart_repeats (order : FrameOrder) (at_ : Nat) (h : s.compositor.state = .composing)
    (hp : s.compositor.policy = .repeatFrame) : (s.frameStart order at_).compositor = s.compositor := by
  have hstate : (s.frameActed order at_).compositor = s.compositor := s.frameActed_compositor order at_
  rw [State.frameStart_eq, State.compositorFrame, hstate, h]
  dsimp only
  rw [State.raise_compositor, hstate, hp]
  exact hstate

theorem frameStart_freezes_output (order : FrameOrder) (at_ : Nat) (h : s.compositor.state = .composing)
    (hp : s.compositor.policy = .freeze) :
    (s.frameStart order at_).compositor = { s.compositor with state := .halted, inFlight := none } := by
  have hstate : (s.frameActed order at_).compositor = s.compositor := s.frameActed_compositor order at_
  rw [State.frameStart_eq, State.compositorFrame, hstate, h]
  dsimp only
  rw [State.raise_compositor, hstate, hp]

theorem frameStart_halted (order : FrameOrder) (at_ : Nat) (h : s.compositor.state = .halted) :
    (s.frameStart order at_).compositor = s.compositor := by
  have hstate : (s.frameActed order at_).compositor = s.compositor := s.frameActed_compositor order at_
  rw [State.frameStart_eq, State.compositorFrame, hstate, h]
  exact hstate

/-! ### The cells of a snapshot -/

/-- A lane's latched cell of one visible item. -/
def State.cellShot (s : State) (i : LaneId) (slot : Nat) : Option CellShot :=
  (s.item? slot).bind fun it => it.cell.map fun c =>
    { entry := c.entry, width := c.width, rendering := c.rendering, colour := s.cellColour i it c }

theorem State.cellShots_eq (s : State) (i : LaneId) : s.cellShots i = (s.lane i).visible.filterMap (s.cellShot i) := by
  refine congrArg (List.filterMap · _) (funext fun slot => ?_)
  rw [State.cellShot]
  cases s.item? slot <;> rfl

theorem State.cellShot_some {slot : Nat} {i : LaneId} {it : Item} {c : Cell} (hit : s.item? slot = some it)
    (hc : it.cell = some c) : s.cellShot i slot =
      some { entry := c.entry, width := c.width, rendering := c.rendering, colour := s.cellColour i it c } := by
  rw [State.cellShot, hit, Option.bind_some, hc, Option.map_some]

/-- A filter that drops nothing keeps every place. -/
theorem map_some_filterMap {α β : Type} {f : α → Option β} {as : List α} (h : ∀ a ∈ as, (f a).isSome = true) :
    (as.filterMap f).map some = as.map f := by
  induction as with
  | nil => rfl
  | cons a as ih =>
    obtain ⟨b, hb⟩ := Option.isSome_iff_exists.mp (h a List.mem_cons_self)
    rw [List.filterMap_cons_some hb, List.map_cons, List.map_cons, hb, ih fun x hx => h x (List.mem_cons_of_mem a hx)]

/-- The latched cells stand in run-list order, one for each visible item. -/
theorem State.cellShots_places {i : LaneId}
    (h : ∀ slot ∈ (s.lane i).visible, ∃ it c, s.item? slot = some it ∧ it.cell = some c) :
    (s.cellShots i).length = (s.lane i).visible.length ∧
      ∀ (n slot : Nat), (s.lane i).visible[n]? = some slot → (s.cellShots i)[n]? = s.cellShot i slot := by
  have hmap : (s.cellShots i).map some = (s.lane i).visible.map (s.cellShot i) := by
    rw [State.cellShots_eq]
    refine map_some_filterMap fun slot hslot => ?_
    obtain ⟨it, c, hit, hc⟩ := h slot hslot
    rw [State.cellShot_some hit hc, Option.isSome_some]
  refine ⟨by simpa using congrArg List.length hmap, fun n slot hn => ?_⟩
  have hget : ((s.cellShots i).map some)[n]? = ((s.lane i).visible.map (s.cellShot i))[n]? := by rw [hmap]
  rw [List.getElem?_map, List.getElem?_map, hn, Option.map_some] at hget
  obtain ⟨x, hx, hxe⟩ := Option.map_eq_some_iff.mp hget
  rw [hx, hxe]

/-- The colour of a cell that is not a QUOTE's is its item's ink. -/
theorem State.cellColour_ink {i : LaneId} {it : Item} {c : Cell} (h : ∀ code link, it.content ≠ .quote code link) :
    s.cellColour i it c = it.ink := by
  unfold State.cellColour
  split
  · rename_i code link hcon
    exact absurd hcon (h code link)
  · rfl
  · rfl

theorem State.cellColour_quote {i : LaneId} {it : Item} {c : Cell} {code : SymCode} {link : Nat} {r : SymbolRec}
    (h : it.content = .quote code link) (hr : s.symbol? link = some r) :
    s.cellColour i it c = quoteColour (s.laneTemplate i).colours r.stale c := by
  rw [State.cellColour, h]
  dsimp only
  rw [hr]
  rfl

end

end Sys2Proof.Machine

namespace Sys2Proof.Machine

/-! ### Frame starts reach every block (O55) -/

section
variable {s t : State} {order : FrameOrder} {at_ : Nat} {i : LaneId} {m : LaneShot}

theorem Compositor.freezes_iff {c : Compositor} : c.freezes = true ↔ c.state = .composing ∧ c.policy = .freeze := by
  simp [Compositor.freezes]

/-- The lanes of a snapshot, each as it was latched. -/
theorem State.mem_snapshot_lanes (h : m ∈ t.snapshot.lanes) : m = t.laneShot m.lane := by
  obtain ⟨i, -, rfl⟩ := List.mem_map.mp h
  rfl

theorem State.snapshot_lanes_map (t : State) : t.snapshot.lanes.map LaneShot.lane =
    ([0, 1, 2, 3, 4, 5] : List LaneId).filter (fun i => decide ((t.lane i).state ≠ .off)) := by
  refine (List.map_map ..).trans (List.map_congr_left fun i _ => rfl) |>.trans (List.map_id _)

/-- A QUOTE cell's colour, and any other's (R113). -/
theorem cellColour_by_content (t : State) (i : LaneId) (it : Item) (c : Cell) :
    let colours := t.formatter.templates[(t.lane i).setup.template].colours
    ((∀ code link, it.content ≠ .quote code link) → t.cellColour i it c = it.ink) ∧
    ∀ code link r, it.content = .quote code link → t.symbol? link = some r →
      t.cellColour i it c = quoteColour colours r.stale c :=
  ⟨State.cellColour_ink, fun _ _ _ h hr => State.cellColour_quote h hr⟩

/-- A freeze by the state of the lane (R4, R147). -/
theorem frameStart_freeze_lane (hf : s.compositor.freezes = true) (order : FrameOrder) (at_ : Nat) (i : LaneId)
    (t : State) (ht : t = s.frameStart order at_) :
    let l := s.lane i
    let raised := t.events.groups[laneGroup i].pending.getLsbD 15 = true
    let kept := t.events.groups[laneGroup i].pending.getLsbD 15 = s.events.groups[laneGroup i].pending.getLsbD 15
    s.Lists →
      (l.Settled → t.lane i = l ∧ kept) ∧
      (l.state = .run ∨ l.state = .brake →
        raised ∧ (∃ m : Lane, t.lane i = m.froze) ∧ (∀ rest, order = .freeze i :: rest → t.lane i = l.froze) ∧
        ∀ rest, order = .lane i :: rest → t.lane i = (((s.frameBegun at_).answerFrame i).lane i).froze) ∧
      (l.state = .held ∨ l.state = .stopped → raised ∧ t.lane i = l.froze) ∧
      (l.state = .armed → (∀ rest, order = .freeze i :: rest → raised ∧ t.lane i = l.froze) ∧
        (raised ∧ (∃ m : Lane, t.lane i = m.froze) ∨ kept ∧ l.IdledFrom (t.lane i))) := by
  subst ht
  intro l raised kept h
  refine ⟨frameStart_freeze_settled hf h, fun hs => ?_, fun hs => ?_, fun hs => ⟨?_, frameStart_freeze_armed hf h hs⟩⟩
  · have hlive : l.Live := hs.elim .inl (.inr ∘ .inl)
    obtain ⟨hraised, hfroze, -⟩ := frameStart_freeze_live (order := order) (at_ := at_) hf h hlive
    refine ⟨hraised, hfroze, ?_, ?_⟩
    · rintro rest rfl
      exact (frameStart_freeze_first hf h hlive.not_settled).2
    · rintro rest rfl
      exact frameStart_freeze_answered hf h hlive
  · obtain ⟨hraised, -, hfroze⟩ := frameStart_freeze_live (order := order) (at_ := at_) hf h (.inr (.inr hs))
    exact ⟨hraised, hfroze hs⟩
  · rintro rest rfl
    exact frameStart_freeze_first hf h (by simp [Lane.Settled, show (s.lane i).state = .armed from hs])

end

/-- Settles O55: a frame start is `State.frameBegun`, the acts, then the Compositor. The symbols by the one check among
the acts (`frameStart_stale`), the snapshot as the latch of the state the acts left, and a freeze by what the state a
lane is frozen in may be (`FreezeMeets`). -/
theorem frameStartsReachEveryBlock : Obligations.FrameStartsReachEveryBlock := by
  intro s order instant t
  refine ⟨.frameStart s order instant, s.frameStart_clock order instant, frameStart_timingGroup s order instant,
    frameStart_outputGroup s order instant, frameStart_stale s order instant t rfl, fun hidle => ?_,
    frameStart_repeats order instant, fun hc hp => ?_, fun hnot i => ?_, frameStart_halted order instant⟩
  · have hlatch := frameStart_latches order instant hidle
    refine ⟨t.snapshot, hlatch, rfl, (congrArg Compositor.palette hlatch :), t.snapshot_lanes_map, fun m hm => ?_⟩
    have hshot := State.mem_snapshot_lanes hm
    have hcells : m.cells = t.cellShots m.lane := congrArg LaneShot.cells hshot
    refine ⟨hcells ▸ hshot, fun hvisible => ?_⟩
    obtain ⟨hlength, hplaces⟩ := State.cellShots_places hvisible
    rw [hcells]
    refine ⟨hlength, fun n slot it c hn hit hc => ⟨t.cellColour m.lane it c, ?_, cellColour_by_content t m.lane it c⟩⟩
    rw [hplaces n slot hn, State.cellShot_some hit hc]
  · have hf := Compositor.freezes_iff.mpr ⟨hc, hp⟩
    refine ⟨frameStart_freezes_output order instant hc hp, fun i =>
      ⟨frameStart_settles hf order instant i, fun hl => ?_⟩⟩
    obtain ⟨hsettled, hmoving, hstill, harmed⟩ := frameStart_freeze_lane hf order instant i t rfl hl.lists
    refine ⟨hsettled, fun hs => ?_, hstill, harmed⟩
    obtain ⟨hraised, hfroze, hfirst, hanswered⟩ := hmoving hs
    refine ⟨hraised, hfroze, hfirst, fun rest e => (hanswered rest e).trans ?_⟩
    rw [show t.clock = _ from s.frameStart_clock order instant]
    rfl
  · exact frameStart_keeps_frozen (Bool.eq_false_iff.mpr (mt Compositor.freezes_iff.mp hnot)) order instant i

end Sys2Proof.Machine

namespace Sys2Proof.Machine

/-! ### PALETTE_SET, OUTPUT_SETUP and OUTPUT_RESUME (R141, R149, R150) -/

section
variable {s : State} {b : List Byte}

/-- A PALETTE_SET body that R141 refuses. -/
def PaletteBad (b : List Byte) : Prop :=
  15 < field b 0 1 ∨ 1023 < field b 1 2 ∨ 1023 < field b 3 2 ∨ 1023 < field b 5 2 ∨ 1023 < field b 7 2

theorem paletteSetRule_of_bad (h : PaletteBad b) : paletteSetRule b s = refuse s .badParam := by
  unfold paletteSetRule
  rcases h with h | h
  · simp only [small?_none (n := 16) h]
  · cases small? 16 (field b 0 1) with
    | none => rfl
    | some k => exact if_pos h

theorem paletteSetRule_of_good {k : Fin 16} (h : ¬ PaletteBad b) (hk : field b 0 1 = k.val) :
    paletteSetRule b s = accept { s with compositor := { s.compositor with
      palette := s.compositor.palette.set k
        { y := field b 1 2, cb := field b 3 2, cr := field b 5 2, gain := field b 7 2 } } } := by
  simp only [paletteSetRule, small?_eq hk]
  exact if_neg fun hbad => h (.inr hbad)

theorem outputSetupRule_of_bad (h : 1 < field b 0 1) : outputSetupRule b s = refuse s .badParam := by
  obtain ⟨m, hm⟩ := Nat.exists_eq_add_of_lt h
  rw [outputSetupRule, show field b 0 1 = m + 2 by omega]
  rfl

theorem outputSetupRule_of_good (h : field b 0 1 ≤ 1) : outputSetupRule b s = accept { s with
    compositor := { s.compositor with policy := if field b 0 1 = 0 then .repeatFrame else .freeze } } := by
  unfold outputSetupRule
  obtain h | h : field b 0 1 = 0 ∨ field b 0 1 = 1 := by omega
  all_goals rw [h]; rfl

/-- The state once the output resumes: the Compositor IDLE and every FROZEN lane STOPPED. -/
def State.resumed (s : State) : State :=
  { s with lanes := s.lanes.map Lane.thaw, compositor := { s.compositor with state := .idle } }

theorem Lane.thaw_eq (l : Lane) : l.thaw = { l with state := if l.state = .frozen then .stopped else l.state } := by
  unfold thaw
  split <;> rfl

theorem State.resumed_lane (s : State) (i : LaneId) : s.resumed.lane i = (s.lane i).thaw := by
  simp [State.lane, State.resumed]

theorem outputResumeRule_of_halted (h : s.compositor.state = .halted) :
    outputResumeRule b s = accept (s.resumed.raise .resumed) := by
  simp only [outputResumeRule, h]
  rfl

theorem outputResumeRule_of_not_halted (h : s.compositor.state ≠ .halted) : outputResumeRule b s = refuse s .noEffect := by
  unfold outputResumeRule
  cases hc : s.compositor.state with
  | halted => exact absurd hc h
  | idle => rfl
  | composing => rfl

end

/-! ### COMPOSITION_COMPLETE (R145) -/

section
variable {s : State}

theorem execCompositionComplete_composing {sn : Snapshot} (h : s.compositor.state = .composing)
    (hf : s.compositor.inFlight = some sn) : execCompositionComplete s =
      .next { s with compositor := { s.compositor with state := .idle, inFlight := none, output := s.draw sn } } := by
  simp only [execCompositionComplete, h, hf]

theorem execCompositionComplete_of_not_composing (h : s.compositor.state ≠ .composing) :
    execCompositionComplete s = .next s := by
  unfold execCompositionComplete
  cases hc : s.compositor.state with
  | composing => exact absurd hc h
  | idle => rfl
  | halted => rfl

end

/-- Settles O59, request by request through the equations of their rules. -/
theorem outputIsProgrammedAndResumed : Obligations.OutputIsProgrammedAndResumed := by
  intro tag b s
  refine ⟨fun h hlen => ?_, fun h hlen => ?_, fun h => ⟨fun hc => ?_, fun hc => ?_⟩,
    fun sn hc hf => execCompositionComplete_composing hc hf, execCompositionComplete_of_not_composing⟩
  · have hl : lengthFits 0x78 b.length = true := by rw [hlen]; rfl
    exact ⟨fun hbad => answers_refused .badParam h hl (paletteSetRule_of_bad hbad),
      fun k hgood hk => answers_ok h hl (paletteSetRule_of_good hgood hk)⟩
  · have hl : lengthFits 0x79 b.length = true := by rw [hlen]; rfl
    exact ⟨fun hbad => answers_refused .badParam h hl (outputSetupRule_of_bad hbad),
      fun hgood => answers_ok h hl (outputSetupRule_of_good hgood)⟩
  · exact answers_refused .noEffect h rfl (outputResumeRule_of_not_halted hc)
  · exact ⟨s.resumed, answers_ok h rfl (outputResumeRule_of_halted hc), rfl,
      fun i => (s.resumed_lane i).trans (Lane.thaw_eq _)⟩

end Sys2Proof.Machine

namespace Sys2Proof.Machine

/-! ### The columns of a drawn cell (R105, R122) -/

/-- The coverages of one row of a drawn entry, left to right. -/
def DrawnEntry.columns (row : Nat) : DrawnEntry → List Nat
  | .image a bytes => (List.range a).map fun k => imagePixel bytes (row * a + k)
  | .blank w => List.replicate w 0

@[simp] theorem DrawnEntry.length_columns (e : DrawnEntry) (row : Nat) : (e.columns row).length = e.width := by
  cases e <;> simp [columns, width]

theorem coverAt_cons_head {e : DrawnEntry} {row i : Nat} (h : i < e.width) (es : List DrawnEntry) :
    coverAt (e :: es) row i = (e.columns row).getD i 0 := by
  cases e with
  | image a bytes =>
    have hi : i < a := h
    simp [coverAt, DrawnEntry.width, DrawnEntry.columns, hi]
  | blank w =>
    have hi : i < w := h
    simp [coverAt, DrawnEntry.width, DrawnEntry.columns, hi]

theorem coverAt_cons_tail {e : DrawnEntry} {row i : Nat} (h : e.width ≤ i) (es : List DrawnEntry) :
    coverAt (e :: es) row i = coverAt es row (i - e.width) := by
  conv_lhs => unfold coverAt
  exact if_neg (Nat.not_lt.mpr h)

/-- Column i of a row is column i of the entries' rows laid end to end, and 0 past the last. -/
theorem coverAt_eq_getD (es : List DrawnEntry) (row i : Nat) :
    coverAt es row i = (es.flatMap (DrawnEntry.columns row)).getD i 0 := by
  induction es generalizing i with
  | nil => rfl
  | cons e es ih =>
    rw [List.flatMap_cons]
    rcases Nat.lt_or_ge i e.width with h | h
    · rw [coverAt_cons_head h, List.getD_append _ _ _ _ (by simpa using h)]
    · rw [coverAt_cons_tail h, ih, List.getD_append_right _ _ _ _ (by simpa using h), DrawnEntry.length_columns]

/-- A pixel of a glyph image is a half byte (R122). -/
theorem imagePixel_le (bytes : List Byte) (n : Nat) : imagePixel bytes n ≤ 15 := by
  have := (bytes.getD (n / 2) 0).isLt
  unfold imagePixel
  dsimp only
  split <;> omega

theorem DrawnEntry.columns_le {e : DrawnEntry} {row v : Nat} (h : v ∈ e.columns row) : v ≤ 15 := by
  cases e with
  | image a bytes =>
    obtain ⟨k, -, rfl⟩ := List.mem_map.mp h
    exact imagePixel_le _ _
  | blank w => simp [List.eq_of_mem_replicate h]

theorem coverAt_le (es : List DrawnEntry) (row i : Nat) : coverAt es row i ≤ 15 := by
  rw [coverAt_eq_getD]
  rcases Nat.lt_or_ge i (es.flatMap (DrawnEntry.columns row)).length with h | h
  · rw [List.getD_eq_getElem _ _ h]
    obtain ⟨e, -, he⟩ := List.mem_flatMap.mp (List.getElem_mem h)
    exact e.columns_le he
  · rw [List.getD_eq_default _ _ h]
    exact Nat.zero_le _

/-! ### Values and mixes (R152, R153) -/

section
variable (c : DrawnCell) (smoothing : Bool) (row x : Nat)

theorem DrawnCell.cover_le (i : Int) : c.cover row i ≤ 15 := by
  unfold cover
  split
  · exact Nat.zero_le _
  · exact coverAt_le _ _ _

/-- Two coverages weighted by 64 − f and f keep to the range of one. -/
theorem DrawnCell.value_le : c.value smoothing row x ≤ 15 := by
  unfold value
  dsimp only
  split
  · generalize 64 * (x : Int) - c.left = u
    have h0 := c.cover_le row (u / 64)
    have h1 := c.cover_le row (u / 64 + 1)
    have hf : (u % 64).toNat ≤ 64 := by omega
    generalize (u % 64).toNat = f at hf
    have hsum : c.cover row (u / 64) * (64 - f) + c.cover row (u / 64 + 1) * f ≤ 15 * 64 :=
      calc _ ≤ 15 * (64 - f) + 15 * f := Nat.add_le_add (Nat.mul_le_mul_right _ h0) (Nat.mul_le_mul_right _ h1)
        _ = 15 * 64 := by omega
    omega
  · exact c.cover_le row _

end

theorem mixComponent_zero (i b : Nat) : mixComponent i b 0 = b := by
  unfold mixComponent
  omega

/-- A value of 0 shows the background alone. -/
@[simp] theorem mixPixel_zero (ink ground : PaletteEntry) : mixPixel ink ground 0 = ground.pixel := by
  simp [mixPixel, mixComponent_zero, PaletteEntry.pixel]

theorem mixComponent_le {i b v : Nat} (hi : i ≤ 1023) (hb : b ≤ 1023) (hv : v ≤ 15) : mixComponent i b v ≤ 1023 := by
  have hsum : i * v + b * (15 - v) ≤ 1023 * 15 :=
    calc _ ≤ 1023 * v + 1023 * (15 - v) := Nat.add_le_add (Nat.mul_le_mul_right _ hi) (Nat.mul_le_mul_right _ hb)
      _ = 1023 * 15 := by omega
  unfold mixComponent
  omega

/-- The components of a palette entry in range (R141). -/
def PaletteEntry.InRange (e : PaletteEntry) : Prop := e.y ≤ 1023 ∧ e.cb ≤ 1023 ∧ e.cr ≤ 1023 ∧ e.gain ≤ 1023

/-- The components of a pixel in range (R153). -/
def Pixel.InRange (p : Pixel) : Prop := p.y ≤ 1023 ∧ p.cb ≤ 1023 ∧ p.cr ≤ 1023 ∧ p.key ≤ 1023

theorem PaletteEntry.InRange.pixel {e : PaletteEntry} (h : e.InRange) : e.pixel.InRange := h

theorem mixPixel_inRange {ink ground : PaletteEntry} {v : Nat} (hi : ink.InRange) (hg : ground.InRange) (hv : v ≤ 15) :
    (mixPixel ink ground v).InRange := by
  obtain ⟨hiy, hicb, hicr, hik⟩ := hi
  obtain ⟨hgy, hgcb, hgcr, hgk⟩ := hg
  exact ⟨mixComponent_le hiy hgy hv, mixComponent_le hicb hgcb hv, mixComponent_le hicr hgcr hv, mixComponent_le hik hgk hv⟩

end Sys2Proof.Machine

namespace Sys2Proof.Machine

/-! ### The cell that draws a column (R152) -/

section
variable {smoothing : Bool} {row x : Nat} {c : DrawnCell} {cs : List DrawnCell}

/-- The strongest of c and the cells after it, of which d is the strongest. -/
theorem strongest_cons_of_some {d : DrawnCell} {w : Nat} (h : strongest smoothing row x cs = some (d, w)) :
    strongest smoothing row x (c :: cs) =
      if c.value smoothing row x < w then some (d, w) else some (c, c.value smoothing row x) := by
  simp only [strongest, h, gt_iff_lt]

theorem strongest_cons_of_none (h : strongest smoothing row x cs = none) :
    strongest smoothing row x (c :: cs) = some (c, c.value smoothing row x) := by
  simp only [strongest, h]

/-- The strongest cell is one of the cells, with its own value. -/
theorem strongest_mem {v : Nat} (h : strongest smoothing row x cs = some (c, v)) :
    c ∈ cs ∧ v = c.value smoothing row x := by
  induction cs generalizing c v with
  | nil => cases h
  | cons d ds ih =>
    cases hs : strongest smoothing row x ds with
    | none =>
      rw [strongest_cons_of_none hs] at h
      cases h
      exact ⟨List.mem_cons_self, rfl⟩
    | some best =>
      rw [strongest_cons_of_some hs] at h
      split at h
      · cases h
        obtain ⟨hmem, hv⟩ := ih hs
        exact ⟨List.mem_cons_of_mem _ hmem, hv⟩
      · cases h
        exact ⟨List.mem_cons_self, rfl⟩

/-- A cell of larger value than those before it, and of no smaller value than those after it, is the strongest. -/
theorem strongest_append_cons {before after : List DrawnCell}
    (hb : ∀ d ∈ before, d.value smoothing row x < c.value smoothing row x)
    (ha : ∀ d ∈ after, d.value smoothing row x ≤ c.value smoothing row x) :
    strongest smoothing row x (before ++ c :: after) = some (c, c.value smoothing row x) := by
  induction before with
  | nil =>
    rw [List.nil_append]
    cases hs : strongest smoothing row x after with
    | none => exact strongest_cons_of_none hs
    | some best =>
      obtain ⟨hmem, hv⟩ := strongest_mem hs
      rw [strongest_cons_of_some hs, if_neg (by rw [hv]; exact Nat.not_lt.mpr (ha _ hmem))]
  | cons d ds ih =>
    rw [List.cons_append, strongest_cons_of_some (ih fun e he => hb e (List.mem_cons_of_mem _ he)),
      if_pos (hb d List.mem_cons_self)]

end

/-! ### A pixel of a band (R151 to R153) -/

section
variable {l : DrawnLane} {x y : Nat}

/-- Outside its window and its glyph rows a lane shows its background. -/
theorem DrawnLane.pixel_outside
    (h : x < l.x0 ∨ l.x0 + l.width ≤ x ∨ y < l.glyphTop ∨ l.glyphTop + l.faceHeight ≤ y) : l.pixel x y = l.ground.pixel :=
  if_neg (by omega)

theorem DrawnLane.pixel_of_no_cells (h : l.cells = []) : l.pixel x y = l.ground.pixel := by
  simp [pixel, h, strongest]

/-- Within its window and its glyph rows a lane mixes the colour of the strongest cell over its background. -/
theorem DrawnLane.pixel_of_strongest {c : DrawnCell} {v : Nat}
    (hx : l.x0 ≤ x ∧ x < l.x0 + l.width) (hy : l.glyphTop ≤ y ∧ y < l.glyphTop + l.faceHeight)
    (h : strongest l.smoothing (y - l.glyphTop) x l.cells = some (c, v)) : l.pixel x y = mixPixel c.ink l.ground v := by
  rw [pixel, if_pos ⟨hx.1, hx.2, hy⟩, h]
  dsimp only
  split
  · rename_i hv
    rw [hv, mixPixel_zero]
  · rfl

/-- What a pixel of a band can be: the background, or a cell's colour mixed over it by the cell's value. -/
theorem DrawnLane.pixel_cases (l : DrawnLane) (x y : Nat) : l.pixel x y = l.ground.pixel ∨
    ∃ c ∈ l.cells, l.pixel x y = mixPixel c.ink l.ground (c.value l.smoothing (y - l.glyphTop) x) := by
  by_cases hx : l.x0 ≤ x ∧ x < l.x0 + l.width
  · by_cases hy : l.glyphTop ≤ y ∧ y < l.glyphTop + l.faceHeight
    · cases hs : strongest l.smoothing (y - l.glyphTop) x l.cells with
      | none => exact .inl (by simp [pixel, hs])
      | some best =>
        obtain ⟨hmem, hv⟩ := strongest_mem hs
        exact .inr ⟨best.1, hmem, hv ▸ pixel_of_strongest hx hy hs⟩
    · exact .inl (pixel_outside (by omega))
  · exact .inl (pixel_outside (by omega))

theorem DrawnLane.pixel_inRange (hg : l.ground.InRange) (hc : ∀ c ∈ l.cells, c.ink.InRange) : (l.pixel x y).InRange := by
  rcases l.pixel_cases x y with h | ⟨c, hmem, h⟩
  · exact h ▸ hg.pixel
  · exact h ▸ mixPixel_inRange (hc c hmem) hg (c.value_le _ _ _)

end

end Sys2Proof.Machine

namespace Sys2Proof.Machine

/-! ### The lane that draws a line (R151) -/

section
variable {p : Picture} {l b : DrawnLane} {x y : Nat}

theorem DrawnLane.covers_iff : l.covers y = true ↔ l.bandTop ≤ y ∧ y < l.bandTop + l.bandHeight := by
  simp [covers]

theorem drawingLane_concat_of_not_covers (h : l.covers y = false) : drawingLane (p ++ [l]) y = drawingLane p y := by
  simp [drawingLane, List.foldl_append, h]

/-- A last lane that covers the line draws it when no higher-numbered lane before it does. -/
theorem drawingLane_concat_of_covers (h : l.covers y = true) (hb : ∀ b, drawingLane p y = some b → b.lane ≤ l.lane) :
    drawingLane (p ++ [l]) y = some l := by
  unfold drawingLane at hb ⊢
  rw [List.foldl_append, List.foldl_cons, List.foldl_nil, if_pos h]
  split
  · rename_i b hbest
    rw [if_pos (hb b hbest)]
  · rfl

/-- A higher-numbered lane goes on drawing the line. -/
theorem drawingLane_concat_of_lower (hb : drawingLane p y = some b) (h : l.lane < b.lane) :
    drawingLane (p ++ [l]) y = some b := by
  unfold drawingLane at hb ⊢
  rw [List.foldl_append, List.foldl_cons, List.foldl_nil, hb]
  dsimp only
  rw [if_neg (Fin.not_le.mpr h), ite_self]

/-- No lane draws a line that no band covers. -/
theorem drawingLane_eq_none (h : ∀ l ∈ p, l.covers y = false) : drawingLane p y = none := by
  induction p using List.reverseRecOn with
  | nil => rfl
  | append_singleton p l ih =>
    rw [drawingLane_concat_of_not_covers (h l (by simp))]
    exact ih fun m hm => h m (by simp [hm])

/-- The lane that draws a line covers it and is one of the picture's lanes. -/
theorem drawingLane_mem (h : drawingLane p y = some b) : b ∈ p ∧ b.covers y = true := by
  induction p using List.reverseRecOn with
  | nil => cases h
  | append_singleton p l ih =>
    have earlier (hb : drawingLane p y = some b) : b ∈ p ++ [l] ∧ b.covers y = true :=
      ⟨List.mem_append_left _ (ih hb).1, (ih hb).2⟩
    cases hl : l.covers y with
    | false => exact earlier (drawingLane_concat_of_not_covers hl ▸ h)
    | true =>
      by_cases hover : ∀ d, drawingLane p y = some d → d.lane ≤ l.lane
      · rw [drawingLane_concat_of_covers hl hover] at h
        cases h
        exact ⟨by simp, hl⟩
      · push Not at hover
        obtain ⟨d, hd, hlower⟩ := hover
        rw [drawingLane_concat_of_lower hd hlower] at h
        cases h
        exact earlier hd

/-- A covering lane that no other covering lane equals or exceeds in number draws the line. -/
theorem drawingLane_eq_some (hl : l ∈ p) (hc : l.covers y = true)
    (hmax : ∀ m ∈ p, m.covers y = true → m = l ∨ m.lane < l.lane) : drawingLane p y = some l := by
  induction p using List.reverseRecOn with
  | nil => cases hl
  | append_singleton p m ih =>
    have hrest : ∀ d ∈ p, d.covers y = true → d = l ∨ d.lane < l.lane := fun d hd => hmax d (List.mem_append_left _ hd)
    by_cases hm : m = l
    · subst hm
      refine drawingLane_concat_of_covers hc fun b hb => ?_
      obtain ⟨hmem, hcb⟩ := drawingLane_mem hb
      rcases hrest b hmem hcb with rfl | hlt
      · exact le_rfl
      · exact hlt.le
    · have hlp : l ∈ p := by
        rcases List.mem_append.mp hl with h | h
        · exact h
        · exact absurd (List.mem_singleton.mp h).symm hm
      have hdraws := ih hlp hrest
      cases hcm : m.covers y with
      | false => rw [drawingLane_concat_of_not_covers hcm, hdraws]
      | true => exact drawingLane_concat_of_lower hdraws ((hmax m (by simp) hcm).resolve_left hm)

theorem pixelAt_of_drawingLane (h : drawingLane p y = some l) : pixelAt p x y = l.pixel x y := by
  simp only [pixelAt, h]

theorem pixelAt_of_uncovered (h : ∀ l ∈ p, l.covers y = false) : pixelAt p x y = emptyPixel := by
  simp only [pixelAt, drawingLane_eq_none h]

theorem pixelAt_inRange (hp : ∀ l ∈ p, l.ground.InRange ∧ ∀ c ∈ l.cells, c.ink.InRange) : (pixelAt p x y).InRange := by
  cases h : drawingLane p y with
  | none =>
    simp only [pixelAt, h]
    exact ⟨by decide, by decide, by decide, by decide⟩
  | some l =>
    obtain ⟨hg, hc⟩ := hp l (drawingLane_mem h).1
    exact pixelAt_of_drawingLane h ▸ DrawnLane.pixel_inRange hg hc

end

end Sys2Proof.Machine

namespace Sys2Proof.Machine

/-! ### The picture of a snapshot (R145, R151 to R153) -/

/-- A latched cell of a lane, drawn. -/
def State.drawCell (s : State) (sn : Snapshot) (l : LaneShot) (c : CellShot) : DrawnCell :=
  { left := leftEdge l.x0 l.width l.travel c.entry, width := c.width, ink := sn.palette[c.colour]
    entries := s.drawRendering s.faces[l.face] c.rendering }

/-- A latched lane, drawn. -/
def State.drawLane (s : State) (sn : Snapshot) (l : LaneShot) : DrawnLane :=
  { lane := l.lane, bandTop := l.bandTop, bandHeight := l.bandHeight, faceHeight := s.faces[l.face].height, x0 := l.x0
    width := l.width, smoothing := l.smoothing, ground := sn.palette[l.background], cells := l.cells.map (s.drawCell sn l) }

theorem State.draw_eq_map (s : State) (sn : Snapshot) : s.draw sn = sn.lanes.map (s.drawLane sn) := rfl

/-- The coverages of one row of a code in a face: its COMPLETE glyph's, or a blank of the default advance (R105, R122). -/
def Face.codeColumns (f : Face) (row : Nat) (code : Byte) : List Nat :=
  match tableFind f.glyphs code.toNat with
  | some g => if g.image.length = g.expected
      then (List.range g.advance).map fun k => imagePixel g.image (row * g.advance + k)
      else List.replicate f.defaultAdvance 0
  | none => List.replicate f.defaultAdvance 0

theorem drawCode_columns (f : Face) (row : Nat) (code : Byte) :
    (drawCode f code).columns row = f.codeColumns row code := by
  unfold drawCode Face.usable Face.codeColumns
  cases tableFind f.glyphs code.toNat with
  | none => rfl
  | some g => by_cases hg : g.image.length = g.expected <;> simp [Glyph.complete, hg, DrawnEntry.columns]

/-- The coverages of one row of a rendering, laid out left to right (R105). -/
def State.renderingColumns (s : State) (f : Face) (row : Nat) : Rendering → List Nat
  | .quote fields => (flatEntries fields).flatMap fun
    | .glyph code => f.codeColumns row code
    | .gap w => List.replicate w 0
  | .text id => match s.text? id with
    | some r => r.codes.flatMap (f.codeColumns row)
    | none => []
  | .mark code => f.codeColumns row code

theorem State.drawRendering_columns (s : State) (f : Face) (row : Nat) (r : Rendering) :
    (s.drawRendering f r).flatMap (DrawnEntry.columns row) = s.renderingColumns f row r := by
  cases r with
  | quote fields =>
    rw [drawRendering, renderingColumns, List.flatMap_map]
    refine List.flatMap_congr fun e _ => ?_
    cases e with
    | glyph code => exact drawCode_columns f row code
    | gap w => rfl
  | text id =>
    rw [drawRendering, renderingColumns, List.flatMap_map]
    cases s.text? id with
    | none => rfl
    | some r => exact List.flatMap_congr fun code _ => drawCode_columns f row code
  | mark code => simp [drawRendering, renderingColumns, drawCode_columns]

/-- The first glyph row's line of a latched lane (R152). -/
def State.shotTop (s : State) (l : LaneShot) : Nat := l.bandTop + (l.bandHeight - s.faces[l.face].height) / 2

/-- c[i] of R152 for a latched cell. -/
def State.shotCover (s : State) (l : LaneShot) (y : Nat) (c : CellShot) (i : Int) : Nat :=
  if i < 0 ∨ (c.width : Int) ≤ i then 0
  else (s.renderingColumns s.faces[l.face] (y - s.shotTop l) c.rendering).getD i.toNat 0

/-- The value of a latched cell at a pixel (R152). -/
def State.shotValue (s : State) (l : LaneShot) (x y : Nat) (c : CellShot) : Nat :=
  let left : Int := 64 * ((l.x0 : Int) + l.width) - ((l.travel : Int) - c.entry)
  let i := (64 * (x : Int) - left) / 64
  let f := (64 * (x : Int) - left - 64 * i).toNat
  if l.smoothing = true then (s.shotCover l y c i * (64 - f) + s.shotCover l y c (i + 1) * f + 32) / 64
  else s.shotCover l y c i

section
variable (s : State) (sn : Snapshot) (l : LaneShot) (x y : Nat) (c : CellShot)

theorem State.drawCell_cover (i : Int) : (s.drawCell sn l c).cover (y - s.shotTop l) i = s.shotCover l y c i := by
  rw [DrawnCell.cover, coverAt_eq_getD, shotCover, ← drawRendering_columns]
  rfl

/-- The value of a drawn cell is that of the latched one. -/
theorem State.drawCell_value : (s.drawCell sn l c).value l.smoothing (y - s.shotTop l) x = s.shotValue l x y c := by
  simp only [DrawnCell.value, drawCell_cover, shotValue, Int.emod_def]
  rfl

variable {s sn l x y c}

/-- A pixel of a band outside its window and its glyph rows. -/
theorem State.drawLane_pixel_outside
    (h : x < l.x0 ∨ l.x0 + l.width ≤ x ∨ y < s.shotTop l ∨ s.shotTop l + s.faces[l.face].height ≤ y) :
    (s.drawLane sn l).pixel x y = sn.palette[l.background].pixel :=
  DrawnLane.pixel_outside h

/-- A pixel of a glyph row inside its window: the cell of largest value, the earlier among equals, mixed by its value. -/
theorem State.drawLane_pixel_inside (hx : l.x0 ≤ x ∧ x < l.x0 + l.width)
    (hy : s.shotTop l ≤ y ∧ y < s.shotTop l + s.faces[l.face].height) {before after : List CellShot}
    (hcells : l.cells = before ++ c :: after) (hb : ∀ d ∈ before, s.shotValue l x y d < s.shotValue l x y c)
    (ha : ∀ d ∈ after, s.shotValue l x y d ≤ s.shotValue l x y c) :
    (s.drawLane sn l).pixel x y =
      mixPixel sn.palette[c.colour] sn.palette[l.background] (s.shotValue l x y c) := by
  have hdrawn : (s.drawLane sn l).cells =
      before.map (s.drawCell sn l) ++ s.drawCell sn l c :: after.map (s.drawCell sn l) := by
    simp [drawLane, hcells]
  refine DrawnLane.pixel_of_strongest (c := s.drawCell sn l c) hx hy ?_
  rw [hdrawn, ← s.drawCell_value sn l x y c]
  refine strongest_append_cons (fun d hd => ?_) (fun d hd => ?_)
  · obtain ⟨d, hmem, rfl⟩ := List.mem_map.mp hd
    exact (s.drawCell_value sn l x y d).trans_lt ((hb d hmem).trans_eq (s.drawCell_value sn l x y c).symm)
  · obtain ⟨d, hmem, rfl⟩ := List.mem_map.mp hd
    exact (s.drawCell_value sn l x y d).trans_le ((ha d hmem).trans_eq (s.drawCell_value sn l x y c).symm)

/-- A lane of the snapshot whose band covers the line, above all others that do, draws it. -/
theorem State.pixelAt_draw (hl : l ∈ sn.lanes) (hc : l.bandTop ≤ y ∧ y < l.bandTop + l.bandHeight)
    (hmax : ∀ m ∈ sn.lanes, m.bandTop ≤ y → y < m.bandTop + m.bandHeight → m = l ∨ m.lane < l.lane) :
    pixelAt (s.draw sn) x y = (s.drawLane sn l).pixel x y := by
  refine pixelAt_of_drawingLane (drawingLane_eq_some (List.mem_map_of_mem hl) (DrawnLane.covers_iff.mpr hc) fun m hm hcm => ?_)
  obtain ⟨m, hmem, rfl⟩ := List.mem_map.mp hm
  obtain ⟨htop, hbottom⟩ := DrawnLane.covers_iff.mp hcm
  exact (hmax m hmem htop hbottom).imp_left (congrArg (s.drawLane sn))

theorem State.pixelAt_draw_uncovered (h : ∀ l ∈ sn.lanes, y < l.bandTop ∨ l.bandTop + l.bandHeight ≤ y) :
    pixelAt (s.draw sn) x y = emptyPixel := by
  refine pixelAt_of_uncovered fun m hm => ?_
  obtain ⟨m, hmem, rfl⟩ := List.mem_map.mp hm
  refine Bool.eq_false_iff.mpr fun hcm => ?_
  obtain ⟨htop, hbottom⟩ := DrawnLane.covers_iff.mp hcm
  exact (h m hmem).elim (Nat.not_lt.mpr htop) (Nat.not_le.mpr hbottom)

theorem State.pixelAt_draw_inRange (h : ∀ k : Fin 16, sn.palette[k].InRange) : (pixelAt (s.draw sn) x y).InRange := by
  refine pixelAt_inRange fun m hm => ?_
  obtain ⟨m, -, rfl⟩ := List.mem_map.mp hm
  refine ⟨h m.background, fun c hc => ?_⟩
  obtain ⟨c, -, rfl⟩ := List.mem_map.mp hc
  exact h c.colour

end

/-- Settles O60: the drawn lanes and cells are the latched ones (`State.drawLane`, `State.drawCell_value`), the fold over the
bands keeps the highest number (`drawingLane_eq_some`), and the fold over the cells the first of largest value
(`strongest_append_cons`). -/
theorem picturesStayInRangeAndInTheirBands : Obligations.PicturesStayInRangeAndInTheirBands := by
  intro s sn x y hpalette p
  refine ⟨State.pixelAt_draw_inRange hpalette, fun h => State.pixelAt_draw_uncovered h, fun l hl htop hbottom hmax => ?_⟩
  have hp : p = (s.drawLane sn l).pixel x y := State.pixelAt_draw hl ⟨htop, hbottom⟩ hmax
  refine ⟨fun h => hp.trans (State.drawLane_pixel_outside h), fun hleft hright hfirst hlast => ⟨fun h => ?_, ?_⟩⟩
  · exact hp.trans (DrawnLane.pixel_of_no_cells (by rw [State.drawLane, h, List.map_nil]))
  · intro before c after hcells hb ha
    have hvalue : s.shotValue l x y c ≤ 15 := s.drawCell_value sn l x y c ▸ DrawnCell.value_le _ _ _ _
    exact ⟨hvalue, hp.trans (State.drawLane_pixel_inside ⟨hleft, hright⟩ ⟨hfirst, hlast⟩ hcells hb ha)⟩

end Sys2Proof.Machine

namespace Sys2Proof.Machine

/-! ### The state after reset (R142, R164, R178) -/

theorem Link.powerOn_sound : Link.powerOn.Sound where
  inbound := Nat.zero_le _
  slots := Nat.zero_le _
  sending := rfl
  buffer := fun _ _ h => by cases h

/-- At power-on no factor of a group is enabled or pending (R164). -/
theorem EventUnit.powerOn_group (g : GroupId) :
    EventUnit.powerOn.groups[g].enable = 0 ∧ EventUnit.powerOn.groups[g].pending = 0 := by
  simp only [powerOn, Fin.getElem_fin, Vector.getElem_map, and_self]

theorem EventUnit.powerOn_sound : EventUnit.powerOn.Sound := fun g => by
  obtain ⟨henable, hpending⟩ := powerOn_group g
  rw [henable, hpending]
  exact ⟨BitVec.zero_and, BitVec.zero_and⟩

theorem EventUnit.powerOn_attn : EventUnit.powerOn.attn = false := by
  simp [attn, anyPending, powerOn]

theorem FrameClock.powerOn_sound (tick : Nat) : (FrameClock.powerOn tick).Sound where
  free := ⟨fun _ => rfl, fun _ => rfl⟩
  period := by simp [FrameClock.powerOn]
  relock := by simp [FrameClock.powerOn]
  count := Nat.zero_le _
  counting := fun _ => Nat.zero_le _
  origin := le_rfl
  previous := fun _ h => by cases h

theorem TextsSound.nil : TextsSound [] where
  rising := rfl
  length := fun _ _ h => by cases h
  blocks := fun _ h => by cases h
  once := .nil

/-- Faces without glyphs, each of the power-on height and default advance. -/
theorem FacesSound.powerOn : FacesSound (Vector.replicate 4 Face.powerOn) where
  rising := by decide
  height := by decide
  advance := by decide
  glyph := fun k code g h => by
    have : (Vector.replicate 4 Face.powerOn)[k] = Face.powerOn := by simp
    rw [this] at h
    cases h
  granules := by decide
  once := by decide

theorem Compositor.powerOn_sound : Compositor.powerOn.Sound where
  inFlight := by decide
  palette := by decide

theorem State.reset_lists : State.reset.ListsAgree := (powerOn_agree True _ _ _ _).lists.listsAgree

theorem State.reset_references : State.reset.ReferencesAgree :=
  ((powerOn_agree True _ _ _ _).refs trivial).referencesAgree

theorem State.reset_sound : State.reset.Sound where
  link := Link.powerOn_sound
  events := EventUnit.powerOn_sound
  lanes := powerOn_sound _ _ _ _
  clock := FrameClock.powerOn_sound 0
  formatter := ⟨Nat.zero_le _, .nil⟩
  texts := .nil
  faces := .powerOn
  compositor := Compositor.powerOn_sound
  lists := State.reset_lists
  generations := ⟨rfl, fun _ h => by cases h⟩
  references := State.reset_references
  reset := fun h => by cases h

/-- Settles O12: every block's power-on values are sound, and the output picture has no lane to draw. -/
theorem resetStateIsSound : Obligations.ResetStateIsSound :=
  ⟨State.reset_sound, rfl, EventUnit.powerOn_attn, fun _ _ => rfl⟩

end Sys2Proof.Machine

namespace Sys2Proof.Machine

/-! ### Groups and their records (R155, R156) -/

/-- A set lies within another exactly when each of its places is a place of the other. -/
theorem and_not_eq_zero_iff {w : Nat} {x y : BitVec w} :
    x &&& ~~~y = 0 ↔ ∀ n, n < w → x.getLsbD n = true → y.getLsbD n = true := by
  constructor
  · intro e n hn hx
    have hbit := congrArg (fun z : BitVec w => z.getLsbD n) e
    simpa [hn, hx] using hbit
  · intro hle
    refine BitVec.eq_of_getLsbD_eq fun n hn => ?_
    cases hx : x.getLsbD n
    · simp [hx]
    · simp [hle n hn hx]

/-- Every factor is either an error factor or an event factor of its group (R155). -/
theorem Factor.error_iff_not_event (f : Factor) :
    (errorPlaces f.group).getLsbD f.place = !(eventPlaces f.group).getLsbD f.place := by
  cases f with
  | gpiEdge n => revert n; decide
  | cue l k => simp only [Factor.group, Factor.place, errorPlaces_laneGroup, eventPlaces_laneGroup]; revert k; decide
  | frame | locked | refLost | resumed | overrun | stale | fresh | badFrame | queueFull => decide
  | started l | stopped l | drained l | holdReached l | holdReleased l | entry l | retired l | formatFault l
  | updateHeld l | shortBrake l | refreshDropped l | frozen l =>
    simp only [Factor.group, Factor.place, errorPlaces_laneGroup, eventPlaces_laneGroup]; decide

/-- A group records its error factors and its enabled event factors (R156). -/
theorem Group.records_getLsbD (r : Group) (g : GroupId) (n : Nat) : (r.records g).getLsbD n =
    ((errorPlaces g).getLsbD n || ((eventPlaces g).getLsbD n && r.enable.getLsbD n)) := by
  rw [Group.records, BitVec.getLsbD_or, BitVec.getLsbD_and, Bool.and_comm (r.enable.getLsbD n)]

theorem laneGroup_val (l : LaneId) : (laneGroup l).val = l.val + 2 := rfl

/-- Settles O13: a raised factor changes its own group alone (`EventUnit.record_groups`), by what that group records; the
table of R155 holds factor by factor. -/
theorem raisedFactorsAreRecorded : Obligations.RaisedFactorsAreRecorded := by
  refine ⟨fun s f => ⟨⟨s.events.record f, rfl, rfl, fun g hg => ?_, s.raise_enable f _, s.raise_level f _, fun n hn => ?_⟩,
    f.error_iff_not_event⟩, ?_⟩
  · rw [EventUnit.record_groups, if_neg hg]
  · rw [EventUnit.record_groups, if_pos rfl, BitVec.getLsbD_or, BitVec.getLsbD_and, Factor.bit_getLsbD f hn,
      Group.records_getLsbD]
  · exact ⟨by decide, by decide, by decide, by decide, by decide, by decide, fun l => by
      have hcue : ∀ k : CueId, (0xE000#16).getLsbD (5 + k.val) = false := by decide
      simp [Factor.group, Factor.place, errorPlaces_laneGroup, hcue, laneGroup_val],
      by decide, by decide, by decide, by decide⟩

/-! ### The attention line (R162) -/

theorem EventUnit.anyPending_iff {u : EventUnit} : u.anyPending = true ↔ ∃ g : GroupId, u.groups[g].pending ≠ 0 := by
  simp only [anyPending, Vector.any_eq_true, bne_iff_ne]
  exact ⟨fun ⟨i, hi, h⟩ => ⟨⟨i, hi⟩, h⟩, fun ⟨g, h⟩ => ⟨g.val, g.isLt, h⟩⟩

/-- Settles O14: `EventUnit.anyPending_iff`, with the mask clear. -/
theorem attnFollowsFactorsAndMask : Obligations.AttnFollowsFactorsAndMask := fun s => by
  rw [EventUnit.attn, Bool.and_eq_true, EventUnit.anyPending_iff, Bool.not_eq_true']

/-! ### Programming the Event Unit (R157, R158, R163) -/

section
variable {b : List Byte} {g : GroupId}

theorem withGroup_eq (hg : field b 0 1 = g.val) (s : State) (rule : GroupId → State × Reply) :
    withGroup b s rule = rule g := by simp [withGroup, small?_eq hg]

theorem withGroup_none (hg : 9 < field b 0 1) (s : State) (rule : GroupId → State × Reply) :
    withGroup b s rule = refuse s .badParam := by simp [withGroup, small?_none (n := 10) hg]

theorem eventPriorityRule_badLevel (s : State) (h : 3 < field b 1 1) :
    eventPriorityRule b s = refuse s .badParam := by
  unfold eventPriorityRule withGroup
  rw [small?_none (n := 4) h]
  split <;> rfl

end

/-- Settles O15: each request names its group by `withGroup`, and the boundaries of the other fields are those of `small?`
and `bool?`. -/
theorem eventUnitIsProgrammed : Obligations.EventUnitIsProgrammed := by
  intro tag b s
  refine ⟨fun h hlen => ?_, fun h hlen => ?_, fun h hlen => ?_⟩
  · have hl : lengthFits 0x08 b.length = true := by rw [hlen]; rfl
    exact ⟨fun g hg => answers_data h hl (withGroup_eq hg s _),
      fun hbad => answers_refused .badParam h hl (withGroup_none hbad s _)⟩
  · have hl : lengthFits 0x09 b.length = true := by rw [hlen]; rfl
    refine ⟨fun g level hg hlevel => answers_ok h hl ?_, fun hbad => answers_refused .badParam h hl ?_⟩
    · rw [eventPriorityRule, withGroup_eq hg, small?_eq hlevel]; rfl
    · rcases hbad with hbad | hbad
      · exact withGroup_none hbad s _
      · exact eventPriorityRule_badLevel s hbad
  · have hl : lengthFits 0x0D b.length = true := by rw [hlen]; rfl
    refine ⟨fun hm => answers_ok h hl ?_, fun hbad => answers_refused .badParam h hl ?_⟩
    · rw [attnMaskRule, bool?_eq hm]; rfl
    · have hnone : bool? (field b 0 1) = none :=
        Option.eq_none_iff_forall_ne_some.mpr fun m hm => absurd (bool?_some hm) (by omega)
      rw [attnMaskRule, hnone]

/-! ### The summary (R159) -/

section
variable {u : EventUnit} {g : GroupId}

theorem mem_allGroups (g : GroupId) : g ∈ allGroups := by revert g; decide

theorem allGroups_pairwise : allGroups.Pairwise (· < ·) := by decide

theorem EventUnit.isPending_iff : u.isPending g = true ↔ u.groups[g].pending ≠ 0 := bne_iff_ne

/-- The bits of the summary are the groups with a factor pending (R159). -/
theorem EventUnit.testBit_summary (u : EventUnit) (n : Nat) :
    u.summary.testBit n = true ↔ ∃ g : GroupId, g.val = n ∧ u.groups[g].pending ≠ 0 := by
  have hsum : u.summary = (((allGroups.filter u.isPending).map Fin.val).map (2 ^ ·)).sum := by
    rw [summary, List.map_map]; rfl
  have hsorted : ((allGroups.filter u.isPending).map Fin.val).Pairwise (· < ·) :=
    List.pairwise_map.mpr (allGroups_pairwise.filter u.isPending)
  rw [← Nat.mem_bitIndices, hsum, Nat.bitIndices_sum_map_two_pow hsorted.sortedLT]
  simp only [List.mem_map, List.mem_filter, mem_allGroups, true_and, isPending_iff, and_comm]

theorem EventUnit.summary_lt (u : EventUnit) : u.summary < 2 ^ 16 :=
  Nat.lt_pow_two_of_testBit _ fun n hn => Bool.eq_false_iff.mpr fun hbit => by
    obtain ⟨g, rfl, -⟩ := (u.testBit_summary n).mp hbit
    omega

/-! ### The group EVENT_NEXT chooses (R160) -/

/-- One comparison of the choice: a later group is taken over the best so far only on a higher level. -/
def EventUnit.prefer (u : EventUnit) (best : Option GroupId) (g : GroupId) : Option GroupId :=
  match best with
  | none => some g
  | some b => if u.groups[g].level > u.groups[b].level then some g else some b

theorem EventUnit.chosen_eq (u : EventUnit) : u.chosen = (allGroups.filter u.isPending).foldl u.prefer none := rfl

/-- A group no other of the list has a higher level than stays chosen. -/
theorem EventUnit.foldl_prefer_some {gs : List GroupId} (hle : ∀ h ∈ gs, u.groups[h].level ≤ u.groups[g].level) :
    gs.foldl u.prefer (some g) = some g := by
  induction gs with
  | nil => rfl
  | cons h gs ih =>
    have hkeep : u.prefer (some g) h = some g := if_neg (Fin.not_lt.mpr (hle h List.mem_cons_self))
    rw [List.foldl_cons, hkeep]
    exact ih fun k hk => hle k (List.mem_cons_of_mem h hk)

/-- What is chosen is the choice made before or a group of the list. -/
theorem EventUnit.mem_of_foldl_prefer {gs : List GroupId} {best : Option GroupId}
    (hb : gs.foldl u.prefer best = some g) : best = some g ∨ g ∈ gs := by
  induction gs generalizing best with
  | nil => exact .inl hb
  | cons h gs ih =>
    rcases ih hb with hbest | hmem
    · unfold prefer at hbest
      split at hbest
      · cases hbest; exact .inr List.mem_cons_self
      · split at hbest <;> cases hbest
        · exact .inr List.mem_cons_self
        · exact .inl rfl
    · exact .inr (List.mem_cons_of_mem h hmem)

/-- The group of highest level is chosen, and of several of that level the first in polling order. -/
theorem EventUnit.chosen_of_highest (hg : u.groups[g].pending ≠ 0)
    (hbest : ∀ h : GroupId, u.groups[h].pending ≠ 0 → h ≠ g → u.groups[h].level < u.groups[g].level ∨
      (u.groups[h].level = u.groups[g].level ∧ g < h)) : u.chosen = some g := by
  have hmem : g ∈ allGroups.filter u.isPending := List.mem_filter.mpr ⟨mem_allGroups g, isPending_iff.mpr hg⟩
  obtain ⟨before, after, hsplit⟩ := List.append_of_mem hmem
  have hpending {h : GroupId} (hh : h ∈ before ++ g :: after) : u.groups[h].pending ≠ 0 :=
    isPending_iff.mp (List.mem_filter.mp (hsplit ▸ hh)).2
  have horder : (before ++ g :: after).Pairwise (· < ·) := hsplit ▸ allGroups_pairwise.filter _
  obtain ⟨-, hrest, hcross⟩ := List.pairwise_append.mp horder
  have hbefore (h : GroupId) (hh : h ∈ before) : u.groups[h].level < u.groups[g].level := by
    have hlt : h < g := hcross h hh g List.mem_cons_self
    exact (hbest h (hpending (List.mem_append_left _ hh)) hlt.ne).resolve_right fun hsame => absurd hsame.2 hlt.asymm
  have hafter (h : GroupId) (hh : h ∈ after) : u.groups[h].level ≤ u.groups[g].level := by
    have hlt : g < h := List.rel_of_pairwise_cons hrest hh
    rcases hbest h (hpending (List.mem_append_right _ (List.mem_cons_of_mem g hh))) hlt.ne' with hlow | ⟨hsame, -⟩
    · exact hlow.le
    · exact hsame.le
  have hreach : u.prefer (before.foldl u.prefer none) g = some g := by
    cases hb : before.foldl u.prefer none with
    | none => rfl
    | some b => exact if_pos (hbefore b ((mem_of_foldl_prefer hb).resolve_left nofun))
  rw [chosen_eq, hsplit, List.foldl_append, List.foldl_cons, hreach]
  exact foldl_prefer_some hafter

theorem EventUnit.chosen_of_quiet (h : ∀ g : GroupId, u.groups[g].pending = 0) : u.chosen = none := by
  have hnil : allGroups.filter u.isPending = [] :=
    List.filter_eq_nil_iff.mpr fun g _ hp => isPending_iff.mp hp (h g)
  rw [chosen_eq, hnil]
  rfl

end

/-- Settles O16: the summary by `EventUnit.testBit_summary`, the choice by `EventUnit.chosen_of_highest`. -/
theorem eventReadsClearWhatTheyReturn : Obligations.EventReadsClearWhatTheyReturn := by
  intro tag b s
  refine ⟨fun h => ⟨BitVec.ofNat 16 s.events.summary, fun g => ?_, fun n hn => ?_, ?_⟩,
    fun h => ⟨fun hquiet => ?_, fun g hg hbest => ?_⟩, fun h hlen => ?_⟩
  · have hlt : g.val < 16 := by omega
    rw [BitVec.getLsbD_ofNat, Bool.eq_iff_iff, decide_eq_true_eq]
    simp [hlt, EventUnit.testBit_summary, ← Fin.ext_iff]
  · rw [BitVec.getLsbD_ofNat, Bool.and_eq_false_iff]
    refine .inr (Bool.eq_false_iff.mpr fun hbit => ?_)
    obtain ⟨g, rfl, -⟩ := (s.events.testBit_summary n).mp hbit
    omega
  · refine answers_data h rfl ?_
    rw [eventSummaryRule, BitVec.toNat_ofNat, Nat.mod_eq_of_lt s.events.summary_lt, boolByte_eq, boolByte_eq,
      List.append_assoc]
    rfl
  · refine answers_data h rfl ?_
    rw [eventNextRule, EventUnit.chosen_of_quiet hquiet]
    rfl
  · refine answers_data h rfl ?_
    rw [eventNextRule, EventUnit.chosen_of_highest hg hbest]
    rfl
  · have hl : lengthFits 0x0C b.length = true := by rw [hlen]; rfl
    exact ⟨fun g hg => answers_data h hl (withGroup_eq hg s _),
      fun hbad => answers_refused .badParam h hl (withGroup_none hbad s _)⟩

end Sys2Proof.Machine

namespace Sys2Proof.Machine

/-! ### Sound groups (R155 to R157) -/

/-- What soundness says of one group. -/
def Group.SoundAt (r : Group) (g : GroupId) : Prop :=
  r.enable &&& ~~~ (eventPlaces g) = 0 ∧ r.pending &&& ~~~ (errorPlaces g ||| r.enable) = 0

section
variable {u : EventUnit} {r : Group} {g h : GroupId}

theorem EventUnit.sound_iff : u.Sound ↔ ∀ g : GroupId, u.groups[g].SoundAt g := Iff.rfl

/-- A group that enables event factors only may hold pending whatever it records beside what it held. -/
theorem Group.SoundAt.record (hr : r.SoundAt g) (x : BitVec 16) :
    ({ r with pending := r.pending ||| (x &&& r.records g) } : Group).SoundAt g := by
  obtain ⟨henable, hpending⟩ := hr
  refine ⟨henable, and_not_eq_zero_iff.mpr fun n hn hbit => ?_⟩
  replace hpending := and_not_eq_zero_iff.mp hpending n hn
  simp only [BitVec.getLsbD_or, BitVec.getLsbD_and, Group.records_getLsbD, Bool.or_eq_true, Bool.and_eq_true]
    at hbit hpending ⊢
  tauto

theorem Group.SoundAt.clear (hr : r.SoundAt g) : ({ r with pending := 0 } : Group).SoundAt g :=
  ⟨hr.1, BitVec.zero_and⟩

/-- EVENT_ENABLE keeps of its enable field the event factors, and of the pending set what is still recorded (R157). -/
theorem Group.soundAt_enabled (r : Group) (g : GroupId) (x : BitVec 16) :
    ({ r with enable := x &&& eventPlaces g
              pending := r.pending &&& (x &&& eventPlaces g ||| errorPlaces g) } : Group).SoundAt g := by
  refine ⟨and_not_eq_zero_iff.mpr fun n _ hbit => ?_, and_not_eq_zero_iff.mpr fun n _ hbit => ?_⟩
  · rw [BitVec.getLsbD_and, Bool.and_eq_true] at hbit
    exact hbit.2
  · rw [BitVec.getLsbD_and, Bool.and_eq_true, BitVec.or_comm] at hbit
    exact hbit.2

theorem EventUnit.setGroup_groups (u : EventUnit) (g : GroupId) (r : Group) (h : GroupId) :
    (u.setGroup g r).groups[h] = if h = g then r else u.groups[h] := by
  by_cases e : h = g
  · subst e; simp [EventUnit.setGroup]
  · have : g.val ≠ h.val := fun hv => e (Fin.ext hv.symm)
    simp [EventUnit.setGroup, e, Vector.getElem_set_ne, this]

theorem EventUnit.Sound.setGroup (hu : u.Sound) (hr : r.SoundAt g) : (u.setGroup g r).Sound := fun h => by
  rw [EventUnit.setGroup_groups]
  split
  · rename_i e; subst e; exact hr
  · exact hu h

theorem EventUnit.Sound.record (hu : u.Sound) (f : Factor) : (u.record f).Sound :=
  hu.setGroup (Group.SoundAt.record (hu f.group) f.bit)

theorem EventUnit.Sound.clear (hu : u.Sound) (g : GroupId) : (u.clear g).Sound :=
  hu.setGroup (Group.SoundAt.clear (hu g))

/-- The soft reset empties every pending set (R164). -/
theorem EventUnit.Sound.softReset (hu : u.Sound) :
    ({ u with groups := u.groups.map fun g => { g with pending := 0 } } : EventUnit).Sound :=
  EventUnit.sound_iff.mpr fun g => by
    simpa using Group.SoundAt.clear (hu g)

end

/-! ### Work that does nothing to the Event Unit but raise factors (R156) -/

/-- The Event Unit of t is that of s after factors recorded one after another. -/
def OnlyRaises (s t : State) : Prop := ∃ fs : List Factor, t.events = fs.foldl EventUnit.record s.events

section
variable {s t u : State}

theorem OnlyRaises.sound (w : OnlyRaises s t) (h : s.events.Sound) : t.events.Sound := by
  obtain ⟨fs, e⟩ := w
  rw [e]
  clear e
  generalize s.events = x at h
  induction fs generalizing x with
  | nil => exact h
  | cons f fs ih => exact ih _ (h.record f)

theorem OnlyRaises.of_events (h : t.events = s.events) : OnlyRaises s t := ⟨[], h⟩

theorem OnlyRaises.refl (s : State) : OnlyRaises s s := .of_events rfl

theorem OnlyRaises.trans (a : OnlyRaises s t) (b : OnlyRaises t u) : OnlyRaises s u := by
  obtain ⟨fs, hf⟩ := a
  obtain ⟨gs, hg⟩ := b
  exact ⟨fs ++ gs, by rw [hg, hf, List.foldl_append]⟩

theorem OnlyRaises.raise (s : State) (f : Factor) : OnlyRaises s (s.raise f) := ⟨[f], rfl⟩

theorem OnlyRaises.andRaise (w : OnlyRaises s t) (f : Factor) : OnlyRaises s (t.raise f) := w.trans (.raise t f)

/-- A factor raised after work that leaves the Event Unit alone. -/
theorem OnlyRaises.of_raise {f : Factor} (h : t.events = s.events) : OnlyRaises s (t.raise f) := (of_events h).andRaise f

theorem OnlyRaises.foldl {α : Type} {f : State → α → State} (h : ∀ s a, OnlyRaises s (f s a)) (as : List α) (s : State) :
    OnlyRaises s (as.foldl f s) := by
  induction as generalizing s with
  | nil => exact .refl s
  | cons a as ih => exact (h s a).trans (ih (f s a))

theorem OnlyRaises.ite {p : Prop} [Decidable p] (ht : OnlyRaises s t) (hu : OnlyRaises s u) :
    OnlyRaises s (if p then t else u) := by
  split <;> assumption

theorem OnlyRaises.andRaiseIf {p : Prop} [Decidable p] (w : OnlyRaises s t) (f : Factor) :
    OnlyRaises s (if p then t.raise f else t) := .ite (w.andRaise f) w

theorem OnlyRaises.raises {α : Type} (f : α → Factor) (as : List α) (s : State) :
    OnlyRaises s (as.foldl (fun s a => s.raise (f a)) s) := .foldl (fun s a => .raise s (f a)) as s

/-! ### Items, offers and starts -/

theorem OnlyRaises.takeRefresh (s : State) : OnlyRaises s s.takeRefresh := by
  rcases s.takeRefresh_cases with ⟨-, h⟩ | ⟨slot, rest, x, -, -, h⟩ <;> exact .of_events (by rw [h])

theorem OnlyRaises.offer (s : State) (k : Nat) : OnlyRaises s (s.offer k) := by
  unfold State.offer
  split
  · exact .refl s
  · split
    · split
      · rename_i it _
        exact .raise s (.refreshDropped it.lane)
      · exact .refl s
    · exact .takeRefresh { s with formatter := { s.formatter with queue := s.formatter.queue ++ [k] } }

theorem OnlyRaises.offerView (s : State) (k : Nat) : OnlyRaises s (s.offerView k) := by
  unfold State.offerView
  split
  · exact .foldl .offer _ s
  · exact .refl s

theorem OnlyRaises.freeItem (s : State) (k : Nat) : OnlyRaises s (s.freeItem k) := by
  cases hit : s.item? k with
  | none => rw [State.freeItem_none hit]; exact .refl s
  | some it => exact .of_events (by rw [State.freeItem_rest hit])

theorem OnlyRaises.freeItems (s : State) (ks : List Nat) : OnlyRaises s (s.freeItems ks) := .foldl .freeItem ks s

theorem OnlyRaises.disposeItem (s : State) (i : LaneId) (k n : Nat) : OnlyRaises s (s.disposeItem i k n) :=
  .ite ((OnlyRaises.freeItem s k).andRaise (.retired i)) (.of_events rfl)

theorem OnlyRaises.startFrom (s : State) (i : LaneId) (r : ReturnState) : OnlyRaises s (s.startFrom i r) := by
  rw [State.startFrom_eq]
  exact .of_raise rfl

theorem OnlyRaises.startArmed (s : State) (i : LaneId) : OnlyRaises s (s.startArmed i) := by
  unfold State.startArmed
  split
  · exact .ite (.startFrom s i _) (.refl s)
  · exact .refl s

theorem OnlyRaises.meetCondition (late : LaneSet) (s : State) (i : LaneId) : OnlyRaises s (s.meetCondition late i) :=
  .ite (.of_events rfl) (.startArmed s i)

theorem OnlyRaises.comesToRest (s : State) (late : LaneSet) (i : LaneId) : OnlyRaises s (s.comesToRest late i) :=
  .foldl (.meetCondition late) _ s

theorem OnlyRaises.pulses (s : State) (mask : LaneSet) : OnlyRaises s (s.pulses mask) :=
  .foldl (fun s i => .ite (.startArmed s i) (.refl s)) _ s

theorem OnlyRaises.stopNow (s : State) (late : LaneSet) (i : LaneId) : OnlyRaises s (s.stopNow late i) := by
  unfold State.stopNow
  dsimp only
  split
  · exact (OnlyRaises.of_raise rfl).trans (.comesToRest _ late i)
  · exact .of_raise rfl

theorem OnlyRaises.endHold (s : State) (i : LaneId) : OnlyRaises s (s.endHold i) := .of_raise rfl

/-- A stop stops at once, stops a held lane, or changes its lane alone (R20). -/
theorem OnlyRaises.applyStop {late : LaneSet} {i : LaneId} {m : StopMode} (h : s.applyStop late i m = some t) :
    OnlyRaises s t := by
  cases hs : (s.lane i).state with
  | off | idle | stopped | frozen => rw [applyStop_of_still (by simp [hs])] at h; cases h
  | armed =>
    cases m with
    | now => rw [applyStop_armed_now hs] at h; cases h; exact .of_events rfl
    | ramp | clear => rw [applyStop_armed_other hs (by simp)] at h; cases h
  | run | brake =>
    cases m with
    | now => rw [applyStop_now (by simp [hs])] at h; cases h; exact .stopNow s late i
    | ramp =>
      rw [applyStop_moving_ramp (by simp [hs])] at h
      split at h <;> cases h
      exact .of_events rfl
    | clear =>
      rw [applyStop_moving_clear (by simp [hs])] at h
      split at h <;> cases h
      exact .of_events rfl
  | held =>
    cases m with
    | now => rw [applyStop_now (by simp [hs])] at h; cases h; exact .stopNow s late i
    | ramp => rw [applyStop_held_ramp hs] at h; cases h; exact .of_raise rfl
    | clear =>
      rw [applyStop_held_clear hs] at h
      split at h <;> cases h
      exact .of_events rfl

/-! ### The parts of an advance (R5) -/

theorem OnlyRaises.landOn (s : State) (i : LaneId) (r : StepResult) : OnlyRaises s (s.landOn i r) := by
  have hlane : OnlyRaises s (s.setLane i (r.lane.land r.ramp)) := .of_events rfl
  have hholds := hlane.trans (.raises (fun _ => .holdReached i) (holdDwells r.lane.landed) _)
  have hcues := hholds.trans (.raises (.cue i) (stopCues r.lane.landed) _)
  have hbrake := hcues.andRaiseIf (p := r.braking > r.lane.accel) (.shortBrake i)
  have hstop := hbrake.andRaiseIf (p := (r.lane.land r.ramp).state = .stopped) (.stopped i)
  exact (hstop.trans (.comesToRest _ 0 i)).trans (.foldl (fun s _ => .pulses s _) _ _)

theorem OnlyRaises.stepPart (s : State) (i : LaneId) : OnlyRaises s (s.stepPart i) :=
  .ite (.landOn s i _) (.ite ((OnlyRaises.of_raise rfl).trans (.comesToRest _ 0 i)) (.of_events rfl))

theorem OnlyRaises.retire (s : State) (i : LaneId) (k : Nat) (it : Item) : OnlyRaises s (s.retire i k it) :=
  (OnlyRaises.of_events (s.leaveView_events k it.content)).trans (.disposeItem _ i k _)

theorem OnlyRaises.retireFrom (i : LaneId) (ks : List Nat) (s : State) : OnlyRaises s (s.retireFrom i ks) := by
  induction ks generalizing s with
  | nil => exact .refl s
  | cons k ks ih =>
    unfold State.retireFrom
    split
    · split
      · exact .ite ((OnlyRaises.retire s i k _).trans (ih _)) (.refl s)
      · exact .refl s
    · exact .refl s

theorem OnlyRaises.retirePart (s : State) (i : LaneId) : OnlyRaises s (s.retirePart i) := .retireFrom i _ s

theorem OnlyRaises.clearPart (s : State) (i : LaneId) : OnlyRaises s (s.clearPart i) :=
  .ite (((OnlyRaises.of_raise rfl).andRaise _).trans (.comesToRest _ 0 i)) (.refl s)

theorem OnlyRaises.enterItem (s : State) (i : LaneId) (n k : Nat) (it : Item) : OnlyRaises s (s.enterItem i n k it) :=
  (OnlyRaises.raise s (.entry i)).trans (.of_events (State.joinView_events _ k it.content))

theorem OnlyRaises.skipItem (s : State) (i : LaneId) (k : Nat) (it : Item) : OnlyRaises s (s.skipItem i k it) :=
  .disposeItem (s.updLane i (Lane.dropItem k)) i k it.passes

theorem OnlyRaises.enterItems (i : LaneId) (n fuel : Nat) (r : EntryRun) :
    OnlyRaises r.state (Machine.enterItems i n fuel r).state := by
  induction fuel generalizing r with
  | zero => exact .refl _
  | succ fuel ih =>
    have hfault := OnlyRaises.raise r.state (.formatFault i)
    unfold Machine.enterItems
    split
    · exact .refl _
    · split
      · exact .refl _
      · split
        · exact .refl _
        · split
          · dsimp only
            split
            · exact (hfault.trans (.skipItem _ i _ _)).trans (ih ⟨_, _, _⟩)
            · exact (hfault.trans (.enterItem _ i _ _ _)).trans (ih ⟨_, _, _⟩)
          · exact (OnlyRaises.enterItem _ i _ _ _).trans (ih ⟨_, _, _⟩)

theorem OnlyRaises.entryPart (s : State) (i : LaneId) (n : Nat) : OnlyRaises s (s.entryPart i n).state :=
  .enterItems i n _ { state := s, entered := [], passed := [] }

theorem OnlyRaises.drainPart (s : State) (i : LaneId) : OnlyRaises s (s.drainPart i) :=
  .ite (((OnlyRaises.of_raise rfl).andRaise _).trans (.comesToRest _ 0 i)) (.refl s)

theorem OnlyRaises.matchCue (s : State) (i : LaneId) (k : CueId) : OnlyRaises s (s.matchCue i k) := by
  unfold State.matchCue
  refine OnlyRaises.trans (.andRaise ?_ (.cue i k)) (.pulses _ _)
  exact .ite (.refl s) (.of_events rfl)

theorem OnlyRaises.cueActions (s : State) (i : LaneId) (as : List CueAction) : OnlyRaises s (s.cueActions i as) := by
  have stop (u : State) (m : StopMode) : OnlyRaises u ((u.applyStop 0 i m).getD u) := by
    cases h : u.applyStop 0 i m with
    | none => exact .refl u
    | some v => exact .applyStop h
  have hload : OnlyRaises s (if .loadStaged ∈ as then s.updLane i Lane.loadStaged else s) :=
    .ite (.of_events rfl) (.refl s)
  exact hload.trans (.ite (stop _ .now) (.ite (stop _ .ramp) (.refl _)))

theorem OnlyRaises.cuePart (s : State) (i : LaneId) (v : CueView) : OnlyRaises s (s.cuePart i v) :=
  (OnlyRaises.foldl (fun s k => .matchCue s i k) _ s).trans (.cueActions _ i _)

/-- A moving advance (R5). -/
theorem OnlyRaises.advance (s : State) (i : LaneId) : OnlyRaises s (s.advance i) := by
  have hretire := (OnlyRaises.stepPart s i).trans (.retirePart _ i)
  have henter := (hretire.trans (.clearPart _ i)).trans (.entryPart _ i (s.lane i).travel)
  have count (u : State) : OnlyRaises u (u.updLane i fun l => { l with runFrames := l.runFrames + 1 }) := .of_events rfl
  exact ((henter.trans (.drainPart _ i)).trans (.cuePart _ i _)).trans (count _)

/-! ### Frame starts (R130) -/

theorem OnlyRaises.answerFrame (s : State) (i : LaneId) : OnlyRaises s (s.answerFrame i) := by
  have hflash : OnlyRaises s (s.flashPart i) := .of_events (s.flashPart_events i)
  unfold State.answerFrame
  split
  · exact .refl s
  · exact .refl s
  · exact .refl s
  · have hcells := OnlyRaises.ite (p := (s.lane i).arm.any (fun a => decide (a.returns = .stopped))) hflash (.refl s)
    exact .ite (hcells.trans (.startArmed _ i)) hcells
  · exact hflash.trans (.advance _ i)
  · exact hflash.trans (.advance _ i)
  · exact hflash.trans (.ite (.endHold _ i) (.of_events rfl))
  · exact hflash

theorem OnlyRaises.checkSymbol (s : State) (k : Nat) : OnlyRaises s (s.checkSymbol k) := by
  unfold State.checkSymbol
  split
  · exact .ite (((OnlyRaises.of_events rfl).trans (.offerView _ k)).andRaise .stale) (.refl s)
  · exact .refl s

theorem OnlyRaises.freezeLane (s : State) (i : LaneId) : OnlyRaises s (s.freezeLane i) := by
  unfold State.freezeLane
  dsimp only
  split
  case h_1 | h_2 | h_3 => exact .refl s
  all_goals exact .of_raise rfl

theorem OnlyRaises.frameAct (freezing : Bool) (s : State) (a : FrameAct) : OnlyRaises s (s.frameAct freezing a) := by
  cases a with
  | lane i => exact .answerFrame s i
  | symbols => exact .foldl .checkSymbol _ s
  | freeze i => exact .ite (.freezeLane s i) (.refl s)

theorem OnlyRaises.compositorFrame (s : State) : OnlyRaises s s.compositorFrame := by
  have hoverrun := OnlyRaises.raise s .overrun
  by_cases h : s.compositor.state = .composing
  · exact hoverrun.trans (.of_events (by rw [compositorFrame_events, if_pos h]))
  · exact .of_events (by rw [compositorFrame_events, if_neg h])

theorem OnlyRaises.frameStart (s : State) (order : FrameOrder) (at_ : Nat) : OnlyRaises s (s.frameStart order at_) :=
  ((OnlyRaises.raise s .frame).trans (.foldl (.frameAct s.compositor.freezes) _ (s.frameBegun at_))).trans
    (.compositorFrame _)

/-! ### Clock, inputs and the receiver -/

theorem OnlyRaises.periodExpiry (s : State) (order : FrameOrder) : OnlyRaises s (s.periodExpiry order) :=
  .ite (.refl s) (.frameStart s order _)

theorem OnlyRaises.windowEnd (s : State) (order : FrameOrder) : OnlyRaises s (s.windowEnd order) :=
  .ite ((OnlyRaises.frameStart s order _).trans (.of_raise rfl)) (.refl s)

theorem OnlyRaises.countPulse (s : State) (order : FrameOrder) : OnlyRaises s (s.countPulse order) :=
  .ite (.ite ((OnlyRaises.raise s .locked).trans (.frameStart _ order _)) (.raise s .locked)) (.of_events rfl)

theorem OnlyRaises.lockedPulse (s : State) (order : FrameOrder) : OnlyRaises s (s.lockedPulse order) :=
  .ite (.frameStart s.pulsed order _) (.of_raise rfl)

/-- A reference pulse (R131 to R134). -/
theorem OnlyRaises.pulseAt (s : State) (order : FrameOrder) : OnlyRaises s (s.pulseAt order) := by
  unfold State.pulseAt
  split
  · exact .refl s
  · exact .countPulse s order
  · exact .countPulse s order
  · refine .ite ?_ (.lockedPulse s order)
    exact (OnlyRaises.windowEnd { s with clock := { s.clock with now := s.clock.windowDue } } order).trans
      (.countPulse { State.windowEnd _ order with clock := _ } order)

theorem OnlyRaises.countedChange (s : State) (late : LaneSet) (n : GpiId) : OnlyRaises s (s.countedChange late n) :=
  .ite ((OnlyRaises.of_raise rfl).trans (.foldl (.meetCondition late) _ _)) (.of_events rfl)

theorem OnlyRaises.levelChange (s : State) (n : GpiId) : OnlyRaises s (s.levelChange n) :=
  .ite (.of_events rfl) ((OnlyRaises.ite (.countedChange s 0 n) (.refl s)).trans (.of_events rfl))

theorem OnlyRaises.offerFrame (s : State) (f : Frame) : OnlyRaises s (s.offerFrame f) :=
  .ite (.of_events rfl) (.ite (.raise s .queueFull) (.raise s .queueFull))

theorem OnlyRaises.examine (tick fuel : Nat) (bs : List Byte) (s : State) :
    OnlyRaises s (State.examine tick fuel bs s) := by
  induction fuel generalizing bs s with
  | zero => exact .refl s
  | succ fuel ih =>
    cases bs with
    | nil => exact .refl s
    | cons b rest =>
      have hbad (bs : List Byte) := (OnlyRaises.of_raise (s := s) rfl).trans
        (ih bs (State.raise { s with link := { s.link with receiver := .hunting } } .badFrame))
      unfold State.examine
      split
      · refine OnlyRaises.trans ?_ (ih rest _)
        exact .ite (.of_events rfl) (.refl s)
      · refine .ite (hbad rest) (.ite ?_ (.ite ?_ (hbad _)))
        · exact (OnlyRaises.of_events rfl).trans (ih rest _)
        · exact (OnlyRaises.offerFrame { s with link := { s.link with receiver := .hunting } } _).trans (ih rest _)

theorem OnlyRaises.dropFrame (s : State) : OnlyRaises s s.dropFrame := by
  unfold State.dropFrame
  split
  · exact .refl s
  · exact .of_raise rfl

theorem OnlyRaises.concludeRefresh (s : State) (f : Formatting) : OnlyRaises s (s.concludeRefresh f) := by
  unfold State.concludeRefresh
  refine .ite (.refl s) ?_
  split
  · exact .refl s
  · split
    · exact .refl s
    · exact .ite (.of_events rfl) (.of_raise rfl)

end

end Sys2Proof.Machine

namespace Sys2Proof.Machine

/-! ### Requests that do nothing to the Event Unit but raise factors -/

/-- A rule that raises factors at most, whatever its request carries. -/
def RuleOnlyRaises (rule : List Byte → State → State × Reply) : Prop := ∀ b s, OnlyRaises s (rule b s).1

section
variable {P : State → Prop} {s : State} {b : List Byte}

/-! What a refused request keeps and the rule keeps for every lane, item, symbol or cue, the request keeps. -/

theorem withGroup_keeps {rule : GroupId → State × Reply} (hs : P s) (h : ∀ g, P (rule g).1) : P (withGroup b s rule).1 := by
  unfold withGroup; split
  · exact h _
  · exact hs

theorem withLane_keeps {rule : LaneId → State × Reply} (hs : P s) (h : ∀ i, P (rule i).1) : P (withLane b s rule).1 := by
  unfold withLane; split
  · exact h _
  · exact hs

theorem withItem_keeps {rule : Nat → Item → State × Reply} (hs : P s) (h : ∀ k it, P (rule k it).1) :
    P (withItem b s rule).1 := by
  unfold withItem; split
  · exact h _ _
  · exact hs

theorem withSymbol_keeps {rule : Nat → SymbolRec → State × Reply} (hs : P s) (h : ∀ k r, P (rule k r).1) :
    P (withSymbol b s rule).1 := by
  unfold withSymbol; split
  · exact h _ _
  · exact hs

theorem withCue_keeps {rule : LaneId → CueId → State × Reply} (hs : P s) (h : ∀ i k, P (rule i k).1) :
    P (withCue b s rule).1 := by
  unfold withCue; split
  · exact h _ _
  · exact hs

/-- A request refused on a check, or answered otherwise. -/
theorem OnlyRaises.choice {p : Prop} [Decidable p] {x y : State × Reply} (hx : OnlyRaises s x.1) (hy : OnlyRaises s y.1) :
    OnlyRaises s (if p then x else y).1 := by
  split <;> assumption

end

section
variable {s : State}

/-! Lane and cue requests -/

theorem laneSetupRule_onlyRaises : RuleOnlyRaises laneSetupRule := fun _ s => withLane_keeps (.refl s) fun _ =>
  .choice (.refl s) (by
    split
    · exact .refl s
    · exact .choice (.refl s) (.of_events rfl))

theorem laneOffRule_onlyRaises : RuleOnlyRaises laneOffRule := fun _ s => withLane_keeps (.refl s) fun i =>
  .choice ((OnlyRaises.freeItems s (s.lane i).queued).trans (.of_events rfl)) (.refl s)

theorem startNow_onlyRaises (i : LaneId) : OnlyRaises s (startNow s i).1 := by
  unfold startNow
  dsimp only
  split
  · exact .startFrom s i _
  · exact .startFrom s i _
  · exact .startArmed s i
  · exact .choice (.of_raise rfl) (.refl s)
  all_goals exact .refl s

theorem armRule_onlyRaises (i : LaneId) (code gpi mask : Nat) : OnlyRaises s (armRule s i code gpi mask).1 := by
  unfold armRule
  split
  · exact .refl s
  · split
    · exact .refl s
    · exact .of_events rfl

theorem laneStartRule_onlyRaises : RuleOnlyRaises laneStartRule := fun _ s => withLane_keeps (.refl s) fun i =>
  .choice (.refl s) (.choice (startNow_onlyRaises i) (armRule_onlyRaises i _ _ _))

theorem laneStopRule_onlyRaises (late : LaneSet) : RuleOnlyRaises (laneStopRule late) := fun _ s =>
  withLane_keeps (.refl s) fun _ => by
    split
    · exact .refl s
    · split
      · rename_i h; exact .applyStop h
      · exact .refl s

theorem laneSpeedRule_onlyRaises : RuleOnlyRaises laneSpeedRule := fun _ s => withLane_keeps (.refl s) fun _ =>
  .choice (.refl s) (.of_events rfl)

theorem laneStageRule_onlyRaises : RuleOnlyRaises laneStageRule := fun _ s => withLane_keeps (.refl s) fun _ =>
  .choice (.refl s) (.choice (.of_events rfl) (.choice (.refl s) (.of_events rfl)))

theorem laneResetRule_onlyRaises : RuleOnlyRaises laneResetRule := fun _ s => withLane_keeps (.refl s) fun i =>
  .choice (.refl s) ((OnlyRaises.freeItems s ((s.lane i).visible ++ (s.lane i).queued)).trans (.of_events rfl))

theorem laneQueryRule_onlyRaises : RuleOnlyRaises laneQueryRule := fun _ s => withLane_keeps (.refl s) fun _ => .refl s

theorem holdReleaseRule_onlyRaises : RuleOnlyRaises holdReleaseRule := fun _ s => withLane_keeps (.refl s) fun i =>
  .choice (.endHold s i) (.refl s)

theorem cueSetRule_onlyRaises : RuleOnlyRaises cueSetRule := fun _ s => withCue_keeps (.refl s) fun _ _ =>
  .choice (.refl s) (by
    split
    · exact .refl s
    · split
      · exact .refl s
      · exact .of_events rfl)

theorem cueClearRule_onlyRaises : RuleOnlyRaises cueClearRule := fun _ s => withCue_keeps (.refl s) fun _ _ =>
  .choice (.of_events rfl) (.refl s)

theorem cueQueryRule_onlyRaises : RuleOnlyRaises cueQueryRule := fun _ s => withCue_keeps (.refl s) fun _ _ => .refl s

/-! Item requests -/

theorem makeItem_onlyRaises (i : LaneId) (b : List Byte) (off : Nat) (ink : Fin 16) (c : Content)
    (place : Nat → Lane → Lane) : OnlyRaises s (makeItem s i b off ink c place).1 := by
  unfold makeItem
  split
  · exact .refl s
  · exact .of_events (by cases c <;> rfl)

theorem itemAppendRule_onlyRaises : RuleOnlyRaises itemAppendRule := fun _ s => withLane_keeps (.refl s) fun i =>
  .choice (.refl s) (by
    split
    · exact .refl s
    · split
      · exact .refl s
      · exact makeItem_onlyRaises i _ _ _ _ _)

theorem itemInsertRule_onlyRaises : RuleOnlyRaises itemInsertRule := fun _ s => withLane_keeps (.refl s) fun i =>
  .choice (.refl s) (by
    split
    · exact .refl s
    · split
      · exact .refl s
      · split
        · exact .refl s
        · exact makeItem_onlyRaises i _ _ _ _ _)

theorem itemReplaceRule_onlyRaises : RuleOnlyRaises itemReplaceRule := fun _ s => withItem_keeps (.refl s) fun _ it =>
  .choice (.refl s) (by
    split
    · exact .refl s
    · refine .choice (.refl s) ?_
      split
      · exact .refl s
      · rename_i c _
        exact .of_events ((State.dropReference_events _ it.content).trans (by cases c <;> rfl)))

theorem itemRemoveRule_onlyRaises : RuleOnlyRaises itemRemoveRule := fun _ s => withItem_keeps (.refl s) fun k _ =>
  .choice (.of_events rfl) (.freeItem s k)

theorem itemPassesRule_onlyRaises : RuleOnlyRaises itemPassesRule := fun _ s => withItem_keeps (.refl s) fun _ _ =>
  .of_events rfl

theorem itemQueryRule_onlyRaises : RuleOnlyRaises itemQueryRule := fun _ s => withItem_keeps (.refl s) fun _ _ => .refl s

theorem runClearRule_onlyRaises : RuleOnlyRaises runClearRule := fun _ s => withLane_keeps (.refl s) fun i =>
  .freeItems s (s.lane i).queued

theorem runListRule_onlyRaises : RuleOnlyRaises runListRule := fun _ s => withLane_keeps (.refl s) fun _ => .refl s

/-! Symbol and class requests -/

theorem symDefineRule_onlyRaises : RuleOnlyRaises symDefineRule := fun _ s => by
  unfold symDefineRule
  dsimp only
  split
  · exact .refl s
  · refine .choice (.refl s) (.choice (.refl s) ?_)
    split
    · exact .refl s
    · exact .of_events rfl

theorem symPriceRule_onlyRaises : RuleOnlyRaises symPriceRule := fun _ s => withSymbol_keeps (.refl s) fun k _ =>
  .choice (.refl s) (.choice (.refl s) (.choice (.refl s) (by
    refine OnlyRaises.trans ?_ (.offerView _ k)
    exact .ite (.of_raise rfl) (.of_events rfl))))

theorem symReferenceRule_onlyRaises : RuleOnlyRaises symReferenceRule := fun _ s => withSymbol_keeps (.refl s) fun k _ =>
  .choice (.refl s) ((OnlyRaises.of_events rfl).trans (.offerView _ k))

theorem symHaltRule_onlyRaises : RuleOnlyRaises symHaltRule := fun _ s => withSymbol_keeps (.refl s) fun k _ =>
  .choice (.refl s) ((OnlyRaises.of_events rfl).trans (.offerView _ k))

theorem symResumeRule_onlyRaises : RuleOnlyRaises symResumeRule := fun _ s => withSymbol_keeps (.refl s) fun k _ =>
  .choice ((OnlyRaises.of_events rfl).trans (.offerView _ k)) (.refl s)

theorem symRemoveRule_onlyRaises : RuleOnlyRaises symRemoveRule := fun _ s => withSymbol_keeps (.refl s) fun _ _ =>
  .choice (.refl s) (.of_events rfl)

theorem symQueryRule_onlyRaises : RuleOnlyRaises symQueryRule := fun _ s => withSymbol_keeps (.refl s) fun _ _ => .refl s

theorem symScanRule_onlyRaises : RuleOnlyRaises symScanRule := fun _ s => .choice (.refl s) (.refl s)

theorem classSetupRule_onlyRaises : RuleOnlyRaises classSetupRule := fun _ s => by
  unfold classSetupRule
  split
  · exact .refl s
  · exact .of_events rfl

/-! Template, text, face, clock and output requests -/

theorem templateSetRule_onlyRaises : RuleOnlyRaises templateSetRule := fun _ s => by
  unfold templateSetRule
  split
  · exact .choice (.refl s) (.choice (.refl s) (.of_events rfl))
  · exact .refl s

theorem templateQueryRule_onlyRaises : RuleOnlyRaises templateQueryRule := fun _ s => by
  unfold templateQueryRule
  split <;> exact .refl s

theorem textCreateRule_onlyRaises : RuleOnlyRaises textCreateRule := fun _ s =>
  .choice (.refl s) (.choice (.refl s) (.choice (.refl s) (.of_events rfl)))

theorem textWriteRule_onlyRaises : RuleOnlyRaises textWriteRule := fun _ s => by
  unfold textWriteRule
  dsimp only
  split
  · exact .refl s
  · exact .choice (.refl s) (.choice (.refl s) (.of_events rfl))

theorem textFreeRule_onlyRaises : RuleOnlyRaises textFreeRule := fun _ s => by
  unfold textFreeRule
  dsimp only
  split
  · exact .refl s
  · exact .choice (.refl s) (.of_events rfl)

theorem faceSetupRule_onlyRaises : RuleOnlyRaises faceSetupRule := fun _ s => by
  unfold faceSetupRule
  dsimp only
  split
  · exact .refl s
  · exact .choice (.refl s) (.choice (.refl s) (.choice (.refl s) (.of_events rfl)))

theorem glyphStart_onlyRaises (k : Fin 4) (code advance : Nat) (data : List Byte) :
    OnlyRaises s (glyphStart s k code advance data).1 :=
  .choice (.refl s) (.choice (.refl s) (.choice (.of_events rfl) (.of_events rfl)))

theorem glyphContinue_onlyRaises (k : Fin 4) (code offset : Nat) (data : List Byte) :
    OnlyRaises s (glyphContinue s k code offset data).1 := by
  unfold glyphContinue
  dsimp only
  split
  · exact .refl s
  · exact .choice (.refl s) (.choice (.refl s) (.of_events rfl))

theorem glyphLoadRule_onlyRaises : RuleOnlyRaises glyphLoadRule := fun _ s => by
  unfold glyphLoadRule
  split
  · exact .refl s
  · exact .choice (.refl s) (.choice (glyphStart_onlyRaises ..) (glyphContinue_onlyRaises ..))

theorem timingSetupRule_onlyRaises (order : FrameOrder) : RuleOnlyRaises (timingSetupRule order) := fun _ s => by
  unfold timingSetupRule
  dsimp only
  split
  · exact .refl s
  · exact .choice (.refl s) (.ite ((OnlyRaises.of_events rfl).trans (.frameStart _ order _)) (.of_events rfl))

theorem gpiSetupRule_onlyRaises : RuleOnlyRaises gpiSetupRule := fun _ s => by
  unfold gpiSetupRule
  split
  · exact .of_events rfl
  · exact .refl s

theorem paletteSetRule_onlyRaises : RuleOnlyRaises paletteSetRule := fun _ s => by
  unfold paletteSetRule
  dsimp only
  split
  · exact .refl s
  · exact .choice (.refl s) (.of_events rfl)

theorem outputSetupRule_onlyRaises : RuleOnlyRaises outputSetupRule := fun _ s => by
  unfold outputSetupRule
  split
  · exact .refl s
  · exact .of_events rfl

theorem outputResumeRule_onlyRaises : RuleOnlyRaises outputResumeRule := fun _ s => by
  by_cases h : s.compositor.state = .halted
  · rw [outputResumeRule_of_halted h]; exact .of_raise rfl
  · rw [outputResumeRule_of_not_halted h]; exact .refl s

end

/-! ### Requests that program or read the Event Unit, and resets (R157, R160, R161, R163, R164) -/

/-- A rule that keeps the Event Unit sound, whatever its request carries. -/
def RuleKeepsEventsSound (rule : List Byte → State → State × Reply) : Prop :=
  ∀ b (s : State), s.events.Sound → (rule b s).1.events.Sound

section
variable {s t : State} {b : List Byte} {k tag : Byte} {rule : List Byte → State → State × Reply}

theorem RuleOnlyRaises.keepsEventsSound (h : RuleOnlyRaises rule) : RuleKeepsEventsSound rule :=
  fun b s => (h b s).sound

theorem eventEnableRule_keepsEventsSound : RuleKeepsEventsSound eventEnableRule := fun b s h =>
  withGroup_keeps (P := fun t => t.events.Sound) h fun g =>
    h.setGroup (s.events.groups[g].soundAt_enabled g (BitVec.ofNat 16 (field b 1 2)))

theorem eventPriorityRule_keepsEventsSound : RuleKeepsEventsSound eventPriorityRule := fun _ s h =>
  withGroup_keeps (P := fun t => t.events.Sound) h fun g => by
    split
    · exact h.setGroup (h g)
    · exact h

theorem eventNextRule_keepsEventsSound : RuleKeepsEventsSound eventNextRule := fun _ _ h => by
  unfold eventNextRule
  split
  · exact h
  · exact h.clear _

theorem eventReadRule_keepsEventsSound : RuleKeepsEventsSound eventReadRule := fun _ _ h =>
  withGroup_keeps (P := fun t => t.events.Sound) h fun g => h.clear g

theorem attnMaskRule_keepsEventsSound : RuleKeepsEventsSound attnMaskRule := fun _ _ h => by
  unfold attnMaskRule
  split <;> exact h

/-! ### Commands -/

theorem inHand_events {f : Frame} (h : s.inHand f = some t) : t.events = s.events := by
  unfold State.inHand at h
  split at h <;> split at h <;> cases h <;> rfl

theorem EventUnit.Sound.serve (h : s.events.Sound) (hr : RuleKeepsEventsSound rule) :
    (serve k tag b rule s).events.Sound := by
  unfold Machine.serve
  split
  · exact h
  · rename_i u hu
    have hhand : u.events.Sound := inHand_events hu ▸ h
    split
    · exact hr b u hhand
    · exact hhand

theorem EventUnit.Sound.served (h : s.events.Sound) (hr : RuleOnlyRaises rule) : (Machine.serve k tag b rule s).events.Sound :=
  h.serve hr.keepsEventsSound

/-- Every command keeps the Event Unit sound: a block other than the Event Unit raises factors at most. -/
theorem exec_keeps_events_sound {c : Instr} (h : s.events.Sound) (he : exec c s = .next t) : t.events.Sound := by
  cases c with
  | ident => cases he; exact h.served fun _ s => .refl s
  | deviceReset => cases he; exact EventUnit.Sound.serve (s := s.elapse _) h fun _ _ h => h.softReset
  | eventEnable => cases he; exact h.serve eventEnableRule_keepsEventsSound
  | eventPriority => cases he; exact h.serve eventPriorityRule_keepsEventsSound
  | eventSummary => cases he; exact h.served fun _ s => .refl s
  | eventNext => cases he; exact h.serve eventNextRule_keepsEventsSound
  | eventRead => cases he; exact h.serve eventReadRule_keepsEventsSound
  | attnMask => cases he; exact h.serve attnMaskRule_keepsEventsSound
  | laneSetup => cases he; exact h.served laneSetupRule_onlyRaises
  | laneOff => cases he; exact h.served laneOffRule_onlyRaises
  | laneStart => cases he; exact h.served laneStartRule_onlyRaises
  | laneStop late => cases he; exact h.served (laneStopRule_onlyRaises late)
  | laneSpeed => cases he; exact h.served laneSpeedRule_onlyRaises
  | laneStage => cases he; exact h.served laneStageRule_onlyRaises
  | laneReset => cases he; exact h.served laneResetRule_onlyRaises
  | laneQuery => cases he; exact h.served laneQueryRule_onlyRaises
  | itemAppend => cases he; exact h.served itemAppendRule_onlyRaises
  | itemInsert => cases he; exact h.served itemInsertRule_onlyRaises
  | itemReplace => cases he; exact h.served itemReplaceRule_onlyRaises
  | itemRemove => cases he; exact h.served itemRemoveRule_onlyRaises
  | itemPasses => cases he; exact h.served itemPassesRule_onlyRaises
  | runClear => cases he; exact h.served runClearRule_onlyRaises
  | itemQuery => cases he; exact h.served itemQueryRule_onlyRaises
  | runList => cases he; exact h.served runListRule_onlyRaises
  | holdRelease => cases he; exact h.served holdReleaseRule_onlyRaises
  | cueSet => cases he; exact h.served cueSetRule_onlyRaises
  | cueClear => cases he; exact h.served cueClearRule_onlyRaises
  | cueQuery => cases he; exact h.served cueQueryRule_onlyRaises
  | symDefine => cases he; exact h.served symDefineRule_onlyRaises
  | symPrice => cases he; exact h.served symPriceRule_onlyRaises
  | symReference => cases he; exact h.served symReferenceRule_onlyRaises
  | symHalt => cases he; exact h.served symHaltRule_onlyRaises
  | symResume => cases he; exact h.served symResumeRule_onlyRaises
  | symRemove => cases he; exact h.served symRemoveRule_onlyRaises
  | symQuery => cases he; exact h.served symQueryRule_onlyRaises
  | symScan => cases he; exact h.served symScanRule_onlyRaises
  | classSetup => cases he; exact h.served classSetupRule_onlyRaises
  | templateSet => cases he; exact h.served templateSetRule_onlyRaises
  | templateQuery => cases he; exact h.served templateQueryRule_onlyRaises
  | textCreate => cases he; exact h.served textCreateRule_onlyRaises
  | textWrite => cases he; exact h.served textWriteRule_onlyRaises
  | textFree => cases he; exact h.served textFreeRule_onlyRaises
  | faceSetup => cases he; exact h.served faceSetupRule_onlyRaises
  | glyphLoad => cases he; exact h.served glyphLoadRule_onlyRaises
  | storeQuery => cases he; exact h.served fun _ s => .refl s
  | timingSetup _ order =>
    cases he; exact EventUnit.Sound.served (s := s.elapse _) h (timingSetupRule_onlyRaises order)
  | timingQuery => cases he; exact h.served fun _ s => .refl s
  | gpiSetup => cases he; exact h.served gpiSetupRule_onlyRaises
  | paletteSet => cases he; exact h.served paletteSetRule_onlyRaises
  | outputSetup => cases he; exact h.served outputSetupRule_onlyRaises
  | outputResume => cases he; exact h.served outputResumeRule_onlyRaises
  | unknownKind kind tag body =>
    cases he
    split
    · rename_i u _ hu
      have hhand : u.events.Sound := inHand_events hu ▸ h
      exact hhand
    · exact h
  | decoderTake => cases he; exact h
  | receiveByte elapsed byte =>
    cases he
    refine OnlyRaises.sound (s := s.elapse elapsed) (.ite (.refl _) ?_) h
    exact (OnlyRaises.ite (.dropFrame _) (.refl _)).trans (.examine _ _ _ _)
  | byteError elapsed => cases he; exact (OnlyRaises.ite (.refl _) (.dropFrame (s.elapse elapsed))).sound h
  | interByteTimeout =>
    cases he
    split
    · exact h
    · exact (OnlyRaises.dropFrame { s with clock := _ }).sound h
  | replySent => cases he; exact h
  | powerOnReset => cases he; exact EventUnit.powerOn_sound
  | framePeriodExpiry order => cases he; exact (OnlyRaises.periodExpiry s order).sound h
  | windowExpiry order => cases he; exact (OnlyRaises.windowEnd s order).sound h
  | referencePulse elapsed order => cases he; exact (OnlyRaises.pulseAt (s.elapse elapsed) order).sound h
  | armedStart lane => cases he; exact (OnlyRaises.ite (.startArmed s lane) (.refl s)).sound h
  | holdDwellExpiry lane => cases he; exact (OnlyRaises.ite (.endHold s lane) (.refl s)).sound h
  | symbolStale slot => cases he; exact (OnlyRaises.checkSymbol s slot).sound h
  | compositionComplete =>
    cases he
    split <;> exact h
  | refreshTake => cases he; exact (OnlyRaises.takeRefresh s).sound h
  | refreshComplete =>
    replace he : execRefreshComplete s = .next t := he
    unfold execRefreshComplete at he
    split at he <;> cases he
    · exact h
    · rename_i f _
      refine OnlyRaises.sound (.trans ?_ (.takeRefresh _)) h
      exact (OnlyRaises.concludeRefresh s f).trans (.of_events rfl)
  | gpiLevelChange elapsed input => cases he; exact (OnlyRaises.levelChange (s.elapse elapsed) input).sound h
  | gpiDebounceExpiry input late =>
    cases he
    split
    · exact h
    · exact (OnlyRaises.countedChange { s with clock := _ } late input).sound h

end

/-- Settles O17: a step idles or runs its front command, and every command keeps the Event Unit sound. -/
theorem pendingSetsHoldRecordedFactorsOnly : Obligations.PendingSetsHoldRecordedFactorsOnly := by
  intro s t h hstep
  unfold step at hstep
  split at hstep
  · cases hstep; exact h
  · refine exec_keeps_events_sound ?_ hstep
    exact h

end Sys2Proof.Machine

namespace Sys2Proof.Machine

/-! ### Generations and the refresh queue through the work inside the part (R29, R31, R107) -/

section
variable {p : Pool} {f : Formatter} {slot : Nat}

/-- The generation after a freed slot's is between 1 and 31, or 0 and not listed (R31). -/
theorem GenerationsSound.bump (h : GenerationsSound p.generations) (slot : Nat) :
    GenerationsSound (p.bump slot).generations := by
  obtain ⟨hrising, hrange⟩ := h
  unfold Pool.bump
  dsimp only
  split
  · exact ⟨tableRising_erase hrising, fun q hq => hrange q (mem_tableErase hq)⟩
  · rename_i hne
    refine ⟨tableRising_put hrising, fun q hq => ?_⟩
    rcases mem_tablePut hq with rfl | hq
    · have : (p.generation slot + 1) % Config.generations < 32 := Nat.mod_lt _ (by decide)
      exact ⟨Nat.pos_of_ne_zero hne, by dsimp only; omega⟩
    · exact hrange q hq

theorem Formatter.Sound.erase (h : f.Sound) (slot : Nat) (x : Option Formatting) :
    ({ f with queue := f.queue.erase slot, inFlight := x } : Formatter).Sound :=
  ⟨(List.length_erase_le ..).trans h.1, h.2.erase slot⟩

theorem Formatter.Sound.append (h : f.Sound) (hnew : slot ∉ f.queue) (hroom : f.queue.length < 64) :
    ({ f with queue := f.queue ++ [slot] } : Formatter).Sound :=
  ⟨by rw [List.length_append]; exact hroom,
    List.nodup_append'.mpr ⟨h.2, List.nodup_singleton slot, List.disjoint_singleton.mpr hnew⟩⟩

end

/-- The generations and the refresh queue. -/
def State.slots (s : State) : Table Nat × List Nat := (s.pool.generations, s.formatter.queue)

/-- t has sound generations and a sound refresh queue where s has. -/
structure KeepsSlots (s t : State) : Prop where
  generations : GenerationsSound s.pool.generations → GenerationsSound t.pool.generations
  queue : s.formatter.Sound → t.formatter.Sound

section
variable {s t u : State}

theorem KeepsSlots.of_slots (h : t.slots = s.slots) : KeepsSlots s t := by
  obtain ⟨hgens, hqueue⟩ := Prod.mk.inj h
  exact ⟨fun h => hgens ▸ h, fun ⟨hlen, hnodup⟩ => ⟨hqueue ▸ hlen, hqueue ▸ hnodup⟩⟩

theorem KeepsSlots.refl (s : State) : KeepsSlots s s := .of_slots rfl

theorem KeepsSlots.trans (a : KeepsSlots s t) (b : KeepsSlots t u) : KeepsSlots s u :=
  ⟨b.generations ∘ a.generations, b.queue ∘ a.queue⟩

theorem KeepsSlots.foldl {α : Type} {f : State → α → State} (h : ∀ s a, KeepsSlots s (f s a)) (as : List α) (s : State) :
    KeepsSlots s (as.foldl f s) := by
  induction as generalizing s with
  | nil => exact .refl s
  | cons a as ih => exact (h s a).trans (ih (f s a))

theorem KeepsSlots.ite {p : Prop} [Decidable p] (ht : KeepsSlots s t) (hu : KeepsSlots s u) :
    KeepsSlots s (if p then t else u) := by
  split <;> assumption

theorem KeepsSlots.raise (s : State) (f : Factor) : KeepsSlots s (s.raise f) := .of_slots rfl

theorem KeepsSlots.setLane (s : State) (i : LaneId) (l : Lane) : KeepsSlots s (s.setLane i l) := .of_slots rfl

theorem KeepsSlots.updItem (s : State) (k : Nat) (f : Item → Item) : KeepsSlots s (s.updItem k f) := .of_slots rfl

theorem KeepsSlots.updSymbol (s : State) (k : Nat) (f : SymbolRec → SymbolRec) : KeepsSlots s (s.updSymbol k f) :=
  .of_slots rfl

theorem KeepsSlots.andRaise (w : KeepsSlots s t) (f : Factor) : KeepsSlots s (t.raise f) := w.trans (.raise t f)

theorem KeepsSlots.andRaiseIf {p : Prop} [Decidable p] (w : KeepsSlots s t) (f : Factor) :
    KeepsSlots s (if p then t.raise f else t) := .ite (w.andRaise f) w

theorem KeepsSlots.raises {α : Type} (f : α → Factor) (as : List α) (s : State) :
    KeepsSlots s (as.foldl (fun s a => s.raise (f a)) s) := .foldl (fun s a => .raise s (f a)) as s

/-! ### Items, views and offers -/

theorem KeepsSlots.leaveView (s : State) (k : Nat) (c : Content) : KeepsSlots s (s.leaveView k c) := by
  cases c with
  | quote => exact ⟨id, fun h => h.erase k _⟩
  | text | mark => exact .of_slots rfl

theorem KeepsSlots.dropReference (s : State) (c : Content) : KeepsSlots s (s.dropReference c) := by
  cases c <;> exact .of_slots rfl

theorem KeepsSlots.addReference (s : State) (c : Content) : KeepsSlots s (s.addReference c) := by
  cases c <;> exact .of_slots rfl

theorem KeepsSlots.joinView (s : State) (k : Nat) (c : Content) : KeepsSlots s (s.joinView k c) := by
  cases c <;> exact .of_slots rfl

theorem KeepsSlots.freeItem (s : State) (k : Nat) : KeepsSlots s (s.freeItem k) := by
  cases hit : s.item? k with
  | none => rw [State.freeItem_none hit]; exact .refl s
  | some it =>
    have hhide : KeepsSlots s (s.hide k it) := .ite (.leaveView s k _) (.refl s)
    have hgone : KeepsSlots s (((s.hide k it).updLane it.lane (Lane.dropItem k)).dropReference it.content) :=
      (hhide.trans (.setLane _ _ _)).trans (.dropReference _ _)
    rw [State.freeItem_steps hit]
    exact ⟨fun h => GenerationsSound.bump h k, hgone.queue⟩

theorem KeepsSlots.freeItems (s : State) (ks : List Nat) : KeepsSlots s (s.freeItems ks) := .foldl .freeItem ks s

theorem KeepsSlots.disposeItem (s : State) (i : LaneId) (k n : Nat) : KeepsSlots s (s.disposeItem i k n) :=
  .ite ((KeepsSlots.freeItem s k).andRaise _) (.of_slots rfl)

theorem KeepsSlots.takeRefresh (s : State) : KeepsSlots s s.takeRefresh := by
  rcases s.takeRefresh_cases with ⟨-, h⟩ | ⟨slot, rest, x, -, hqueue, h⟩
  · rw [h]; exact .refl s
  · rw [h]
    refine ⟨id, fun ⟨hlen, hnodup⟩ => ?_⟩
    rw [hqueue] at hlen hnodup
    exact ⟨Nat.le_of_succ_le hlen, (List.nodup_cons.mp hnodup).2⟩

/-- An item joins the queue only when it is not in it and the queue has room (R107). -/
theorem KeepsSlots.offer (s : State) (k : Nat) : KeepsSlots s (s.offer k) := by
  unfold State.offer
  split
  · exact .refl s
  · rename_i hnew
    split
    · split
      · exact .of_slots rfl
      · exact .refl s
    · rename_i hroom
      refine KeepsSlots.trans ?_ (.takeRefresh _)
      exact ⟨id, fun h => h.append hnew (Nat.not_le.mp hroom)⟩

theorem KeepsSlots.offerView (s : State) (k : Nat) : KeepsSlots s (s.offerView k) := by
  unfold State.offerView
  split
  · exact .foldl .offer _ s
  · exact .refl s

/-! ### Starts, stops and comings to rest -/

theorem KeepsSlots.startFrom (s : State) (i : LaneId) (r : ReturnState) : KeepsSlots s (s.startFrom i r) := by
  rw [State.startFrom_eq]
  exact .of_slots rfl

theorem KeepsSlots.startArmed (s : State) (i : LaneId) : KeepsSlots s (s.startArmed i) := by
  unfold State.startArmed
  split
  · exact .ite (.startFrom s i _) (.refl s)
  · exact .refl s

theorem KeepsSlots.meetCondition (late : LaneSet) (s : State) (i : LaneId) : KeepsSlots s (s.meetCondition late i) :=
  .ite (.of_slots rfl) (.startArmed s i)

theorem KeepsSlots.comesToRest (s : State) (late : LaneSet) (i : LaneId) : KeepsSlots s (s.comesToRest late i) :=
  .foldl (.meetCondition late) _ s

theorem KeepsSlots.pulses (s : State) (mask : LaneSet) : KeepsSlots s (s.pulses mask) :=
  .foldl (fun s i => .ite (.startArmed s i) (.refl s)) _ s

theorem KeepsSlots.stopNow (s : State) (late : LaneSet) (i : LaneId) : KeepsSlots s (s.stopNow late i) := by
  unfold State.stopNow
  dsimp only
  split
  · exact ((KeepsSlots.setLane s i _).andRaise _).trans (.comesToRest _ late i)
  · exact .of_slots rfl

/-- A stop stops at once, or changes its lane alone (R20). -/
theorem KeepsSlots.applyStop {late : LaneSet} {i : LaneId} {m : StopMode} (h : s.applyStop late i m = some t) :
    KeepsSlots s t := by
  cases hs : (s.lane i).state with
  | off | idle | stopped | frozen => rw [applyStop_of_still (by simp [hs])] at h; cases h
  | armed =>
    cases m with
    | now => rw [applyStop_armed_now hs] at h; cases h; exact .of_slots rfl
    | ramp | clear => rw [applyStop_armed_other hs (by simp)] at h; cases h
  | run | brake =>
    cases m with
    | now => rw [applyStop_now (by simp [hs])] at h; cases h; exact .stopNow s late i
    | ramp =>
      rw [applyStop_moving_ramp (by simp [hs])] at h
      split at h <;> cases h
      exact .of_slots rfl
    | clear =>
      rw [applyStop_moving_clear (by simp [hs])] at h
      split at h <;> cases h
      exact .of_slots rfl
  | held =>
    cases m with
    | now => rw [applyStop_now (by simp [hs])] at h; cases h; exact .stopNow s late i
    | ramp => rw [applyStop_held_ramp hs] at h; cases h; exact .of_slots rfl
    | clear =>
      rw [applyStop_held_clear hs] at h
      split at h <;> cases h
      exact .of_slots rfl

/-! ### The parts of an advance (R5) -/

theorem KeepsSlots.landOn (s : State) (i : LaneId) (r : StepResult) : KeepsSlots s (s.landOn i r) := by
  have hlane : KeepsSlots s (s.setLane i (r.lane.land r.ramp)) := .of_slots rfl
  have hholds := hlane.trans (.raises (fun _ => .holdReached i) (holdDwells r.lane.landed) _)
  have hcues := hholds.trans (.raises (.cue i) (stopCues r.lane.landed) _)
  have hbrake := hcues.andRaiseIf (p := r.braking > r.lane.accel) (.shortBrake i)
  have hstop := hbrake.andRaiseIf (p := (r.lane.land r.ramp).state = .stopped) (.stopped i)
  exact (hstop.trans (.comesToRest _ 0 i)).trans (.foldl (fun s _ => .pulses s _) _ _)

theorem KeepsSlots.stepPart (s : State) (i : LaneId) : KeepsSlots s (s.stepPart i) :=
  .ite (.landOn s i _) (.ite (((KeepsSlots.setLane s i _).andRaise _).trans (.comesToRest _ 0 i)) (.of_slots rfl))

theorem KeepsSlots.retire (s : State) (i : LaneId) (k : Nat) (it : Item) : KeepsSlots s (s.retire i k it) :=
  (((KeepsSlots.leaveView s k it.content).trans (.updItem _ _ _)).trans (.setLane _ _ _)).trans (.disposeItem _ i k _)

theorem KeepsSlots.retireFrom (i : LaneId) (ks : List Nat) (s : State) : KeepsSlots s (s.retireFrom i ks) := by
  induction ks generalizing s with
  | nil => exact .refl s
  | cons k ks ih =>
    unfold State.retireFrom
    split
    · split
      · exact .ite ((KeepsSlots.retire s i k _).trans (ih _)) (.refl s)
      · exact .refl s
    · exact .refl s

theorem KeepsSlots.retirePart (s : State) (i : LaneId) : KeepsSlots s (s.retirePart i) := .retireFrom i _ s

theorem KeepsSlots.clearPart (s : State) (i : LaneId) : KeepsSlots s (s.clearPart i) :=
  .ite ((((KeepsSlots.setLane s i _).andRaise _).andRaise _).trans (.comesToRest _ 0 i)) (.refl s)

theorem KeepsSlots.enterItem (s : State) (i : LaneId) (n k : Nat) (it : Item) : KeepsSlots s (s.enterItem i n k it) :=
  (((KeepsSlots.updItem s k _).trans (.setLane _ _ _)).andRaise _).trans (.joinView _ k it.content)

theorem KeepsSlots.skipItem (s : State) (i : LaneId) (k : Nat) (it : Item) : KeepsSlots s (s.skipItem i k it) :=
  (KeepsSlots.setLane s i _).trans (.disposeItem _ i k it.passes)

theorem KeepsSlots.enterItems (i : LaneId) (n fuel : Nat) (r : EntryRun) :
    KeepsSlots r.state (Machine.enterItems i n fuel r).state := by
  induction fuel generalizing r with
  | zero => exact .refl _
  | succ fuel ih =>
    have hfault : KeepsSlots r.state (r.state.raise (.formatFault i)) := .of_slots rfl
    unfold Machine.enterItems
    split
    · exact .refl _
    · split
      · exact .refl _
      · split
        · exact .refl _
        · split
          · dsimp only
            split
            · exact (hfault.trans (.skipItem _ i _ _)).trans (ih ⟨_, _, _⟩)
            · exact (hfault.trans (.enterItem _ i _ _ _)).trans (ih ⟨_, _, _⟩)
          · exact (KeepsSlots.enterItem _ i _ _ _).trans (ih ⟨_, _, _⟩)

theorem KeepsSlots.entryPart (s : State) (i : LaneId) (n : Nat) : KeepsSlots s (s.entryPart i n).state :=
  .enterItems i n _ { state := s, entered := [], passed := [] }

theorem KeepsSlots.drainPart (s : State) (i : LaneId) : KeepsSlots s (s.drainPart i) :=
  .ite ((((KeepsSlots.setLane s i _).andRaise _).andRaise _).trans (.comesToRest _ 0 i)) (.refl s)

theorem KeepsSlots.matchCue (s : State) (i : LaneId) (k : CueId) : KeepsSlots s (s.matchCue i k) := by
  unfold State.matchCue
  refine KeepsSlots.trans (.andRaise ?_ (.cue i k)) (.pulses _ _)
  exact .ite (.refl s) (.of_slots rfl)

theorem KeepsSlots.cueActions (s : State) (i : LaneId) (as : List CueAction) : KeepsSlots s (s.cueActions i as) := by
  have stop (u : State) (m : StopMode) : KeepsSlots u ((u.applyStop 0 i m).getD u) := by
    cases h : u.applyStop 0 i m with
    | none => exact .refl u
    | some v => exact .applyStop h
  have hload : KeepsSlots s (if .loadStaged ∈ as then s.updLane i Lane.loadStaged else s) :=
    .ite (.of_slots rfl) (.refl s)
  exact hload.trans (.ite (stop _ .now) (.ite (stop _ .ramp) (.refl _)))

theorem KeepsSlots.cuePart (s : State) (i : LaneId) (v : CueView) : KeepsSlots s (s.cuePart i v) :=
  (KeepsSlots.foldl (fun s k => .matchCue s i k) _ s).trans (.cueActions _ i _)

/-- A moving advance (R5). -/
theorem KeepsSlots.advance (s : State) (i : LaneId) : KeepsSlots s (s.advance i) := by
  have hretire := (KeepsSlots.stepPart s i).trans (.retirePart _ i)
  have henter := (hretire.trans (.clearPart _ i)).trans (.entryPart _ i (s.lane i).travel)
  have count (u : State) : KeepsSlots u (u.updLane i fun l => { l with runFrames := l.runFrames + 1 }) := .of_slots rfl
  exact ((henter.trans (.drainPart _ i)).trans (.cuePart _ i _)).trans (count _)

/-! ### The acts of a frame start (R130) -/

theorem KeepsSlots.answerFrame (s : State) (i : LaneId) : KeepsSlots s (s.answerFrame i) := by
  have hflash : KeepsSlots s (s.flashPart i) := .foldl (fun s k => .updItem s k _) _ s
  unfold State.answerFrame
  split
  case h_1 | h_2 | h_3 => exact .refl s
  · have hcells := KeepsSlots.ite (p := (s.lane i).arm.any (fun a => decide (a.returns = .stopped))) hflash (.refl s)
    exact .ite (hcells.trans (.startArmed _ i)) hcells
  case h_5 | h_6 => exact hflash.trans (.advance _ i)
  · exact hflash.trans (.ite (.of_slots rfl) (.of_slots rfl))
  · exact hflash

theorem KeepsSlots.checkSymbol (s : State) (k : Nat) : KeepsSlots s (s.checkSymbol k) := by
  unfold State.checkSymbol
  split
  · exact .ite (((KeepsSlots.updSymbol s k _).trans (.offerView _ k)).andRaise _) (.refl s)
  · exact .refl s

theorem KeepsSlots.freezeLane (s : State) (i : LaneId) : KeepsSlots s (s.freezeLane i) := by
  unfold State.freezeLane
  dsimp only
  split <;> exact .of_slots rfl

theorem KeepsSlots.frameAct (freezing : Bool) (s : State) (a : FrameAct) : KeepsSlots s (s.frameAct freezing a) := by
  cases a with
  | lane i => exact .answerFrame s i
  | symbols => exact .foldl .checkSymbol _ s
  | freeze i => exact .ite (.freezeLane s i) (.refl s)

end

end Sys2Proof.Machine

namespace Sys2Proof.Machine

/-! ### Tables changed in one record -/

section
variable {α β : Type} {t : Table α} {k : Nat} {v w : α}

/-- A change that keeps what is read of the record it meets. -/
theorem map_tableUpdate_found {f : α → α} {g : Nat × α → β} (h : ∀ w, tableFind t k = some w → g (k, f w) = g (k, w)) :
    (tableUpdate t k f).map g = t.map g := by
  induction t with
  | nil => rfl
  | cons p t ih =>
    obtain ⟨j, w⟩ := p
    by_cases hj : j = k
    · subst hj
      simp [tableUpdate, h w (by simp [tableFind])]
    · simp [tableUpdate, hj, ih fun w hw => h w (by simp [tableFind, hj, hw])]

/-- A write over a record that is there is a change of it. -/
theorem tablePut_of_found (ht : tableRising t = true) (h : tableFind t k = some w) :
    tablePut t k v = tableUpdate t k fun _ => v := by
  induction t with
  | nil => cases h
  | cons p t ih =>
    obtain ⟨j, x⟩ := p
    obtain ⟨hbelow, hrising⟩ := tableRising_cons.mp ht
    by_cases hj : j = k
    · simp [tablePut, tableUpdate, hj]
    · have hfind : tableFind t k = some w := by simpa [tableFind, hj] using h
      have : j < k := hbelow _ (mem_of_tableFind hfind)
      simp [tablePut, tableUpdate, hj, Nat.not_lt.mpr (Nat.le_of_lt this), ih hrising hfind]

/-- A write of a new number adds one record. -/
theorem tablePut_perm_of_none (h : tableFind t k = none) : (tablePut t k v).Perm ((k, v) :: t) := by
  induction t with
  | nil => exact .refl _
  | cons p t ih =>
    obtain ⟨j, x⟩ := p
    have hj : j ≠ k := by rintro rfl; simp [tableFind] at h
    rw [tablePut, if_neg hj]
    split
    · exact .refl _
    · exact ((ih (by simpa [tableFind, hj] using h)).cons _).trans (.swap ..)

end

/-! ### The Text Pool (R115, R117 to R119) -/

section
variable {t t' : Table TextRec} {id : Nat} {r : TextRec}

theorem usedBlocks_eq (t : Table TextRec) : usedBlocks t = (t.map fun p => p.2.blocks).flatten := rfl

/-- The Text Pool's soundness speaks of ids, blocks and lengths alone. -/
theorem TextsSound.congr (h : TextsSound t)
    (e : t'.map (fun (k, r) => (k, r.blocks, r.codes.length)) = t.map fun (k, r) => (k, r.blocks, r.codes.length)) :
    TextsSound t' := by
  have hused : usedBlocks t' = usedBlocks t := by
    have := congrArg (List.map fun p : Nat × List Nat × Nat => p.2.1) e
    simp only [List.map_map] at this
    rw [usedBlocks_eq, usedBlocks_eq]
    exact congrArg List.flatten this
  refine ⟨?_, fun id r' hr' => ?_, hused ▸ h.blocks, hused ▸ h.once⟩
  · rw [← tableRising_map t' fun r => (r.blocks, r.codes.length), e, tableRising_map t fun r => (r.blocks, r.codes.length)]
    exact h.rising
  · have hfind : (tableFind t' id).map (fun r => (r.blocks, r.codes.length)) =
        (tableFind t id).map fun r => (r.blocks, r.codes.length) := by
      rw [← tableFind_map, ← tableFind_map, e]
    rw [hr', Option.map_some] at hfind
    obtain ⟨r, hr, hsame⟩ := Option.map_eq_some_iff.mp hfind.symm
    obtain ⟨hblocks, hlength⟩ := Prod.mk.inj hsame
    rw [← hblocks, ← hlength]
    exact h.length id r hr

theorem TextsSound.update (h : TextsSound t) {f : TextRec → TextRec} (hf : ∀ r, tableFind t id = some r →
    (f r).blocks = r.blocks ∧ (f r).codes.length = r.codes.length) : TextsSound (tableUpdate t id f) :=
  h.congr (map_tableUpdate_found fun r hr => by simp [hf r hr])

theorem TextsSound.erase (h : TextsSound t) : TextsSound (tableErase t id) := by
  have hused : (usedBlocks (tableErase t id)).Sublist (usedBlocks t) := (tableErase_sublist t id).flatMap _
  refine ⟨tableRising_erase h.rising, fun j r hr => ?_, fun b hb => h.blocks b (hused.subset hb), hused.nodup h.once⟩
  rw [tableFind_erase h.rising] at hr
  split at hr
  · cases hr
  · exact h.length j r hr

/-- A new text whose blocks no text holds. -/
theorem TextsSound.put (h : TextsSound t) (hnew : tableFind t id = none)
    (hlength : 1 ≤ r.codes.length ∧ r.codes.length ≤ 1024 ∧ r.blocks.length = ceilDiv r.codes.length 32)
    (hblocks : ∀ b ∈ r.blocks, b < 256 ∧ b ∉ usedBlocks t) (hnodup : r.blocks.Nodup) : TextsSound (tablePut t id r) := by
  have hused : (usedBlocks (tablePut t id r)).Perm (r.blocks ++ usedBlocks t) :=
    (tablePut_perm_of_none hnew).flatMap_right _
  refine ⟨tableRising_put h.rising, fun j r' hr => ?_, fun b hb => ?_, ?_⟩
  · rw [tableFind_put h.rising] at hr
    split at hr
    · cases hr; exact hlength
    · exact h.length j r' hr
  · rcases List.mem_append.mp (hused.subset hb) with hb | hb
    · exact (hblocks b hb).1
    · exact h.blocks b hb
  · exact hused.nodup_iff.mpr (List.nodup_append'.mpr ⟨hnodup, h.once, fun b hb => (hblocks b hb).2⟩)

end

/-! ### The Glyph Store (R121, R122, R124 to R126) -/

section
variable {fs : Vector Face 4} {k : Fin 4} {f : Face}

/-- No granule is held twice: not within a face, and not by two faces. -/
theorem nodup_heldGranules : (heldGranules fs).Nodup ↔ (∀ j : Fin 4, fs[j].heldGranules.Nodup) ∧
    ∀ i j : Fin 4, i ≠ j → fs[i].heldGranules.Disjoint fs[j].heldGranules := by
  rw [heldGranules_eq, List.nodup_flatMap]
  have : Std.Symm (Function.onFun List.Disjoint fun k : Fin 4 => fs[k].heldGranules) := ⟨fun _ _ h => h.symm⟩
  refine and_congr (by simp) ((List.nodup_finRange 4).pairwise_coe.symm.trans ?_)
  simp [Set.Pairwise, Function.onFun]

/-- A face of the store replaced, with what soundness asks of it. -/
theorem FacesSound.set (h : FacesSound fs) (hrising : tableRising f.glyphs = true) (hheight : 16 ≤ f.height ∧ f.height ≤ 128)
    (hadvance : 1 ≤ f.defaultAdvance ∧ f.defaultAdvance ≤ 63)
    (hglyph : ∀ code g, tableFind f.glyphs code = some g → 1 ≤ g.advance ∧ g.advance ≤ 63 ∧
      g.expected = ceilDiv (f.height * g.advance) 2 ∧ g.image.length ≤ g.expected ∧
      g.granules.length = ceilDiv g.expected 64)
    (hgranules : ∀ b ∈ heldGranules (fs.set k f), b < 8192) (honce : (heldGranules (fs.set k f)).Nodup) :
    FacesSound (fs.set k f) := by
  refine ⟨fun j => ?_, fun j => ?_, fun j => ?_, fun j => ?_, hgranules, honce⟩ <;> rw [getElem_set_face] <;> split
  · exact hrising
  · exact h.rising j
  · exact hheight
  · exact h.height j
  · exact hadvance
  · exact h.advance j
  · exact hglyph
  · exact h.glyph j

/-- A face that holds no more granules than before. -/
theorem FacesSound.set_sublist (h : FacesSound fs) (hheld : f.heldGranules.Sublist fs[k].heldGranules)
    (hrising : tableRising f.glyphs = true) (hheight : 16 ≤ f.height ∧ f.height ≤ 128)
    (hadvance : 1 ≤ f.defaultAdvance ∧ f.defaultAdvance ≤ 63)
    (hglyph : ∀ code g, tableFind f.glyphs code = some g → 1 ≤ g.advance ∧ g.advance ≤ 63 ∧
      g.expected = ceilDiv (f.height * g.advance) 2 ∧ g.image.length ≤ g.expected ∧
      g.granules.length = ceilDiv g.expected 64) : FacesSound (fs.set k f) :=
  have hless := heldGranules_set_sublist (k := k) hheld
  h.set hrising hheight hadvance hglyph (fun b hb => h.granules b (hless.subset hb)) (hless.nodup h.once)

/-- The store once the glyph of a code is gone (R125). -/
theorem FacesSound.without (h : FacesSound fs) (k : Fin 4) (code : Nat) : FacesSound (fs.set k (fs[k].without code)) := by
  refine h.set_sublist Face.heldGranules_without (Face.tableRising_without (h.rising k)) (h.height k) (h.advance k)
    fun c g hg => ?_
  rw [Face.tableFind_without (h.rising k)] at hg
  split at hg
  · cases hg
  · exact h.glyph k c g hg

/-- A glyph loaded in a face that holds none of its code, in granules that no glyph holds (R125). -/
theorem FacesSound.load (h : FacesSound fs) {code : Nat} {g : Glyph} (hnew : tableFind fs[k].glyphs code = none)
    (hglyph : 1 ≤ g.advance ∧ g.advance ≤ 63 ∧ g.expected = ceilDiv (fs[k].height * g.advance) 2 ∧
      g.image.length ≤ g.expected ∧ g.granules.length = ceilDiv g.expected 64)
    (hfree : ∀ b ∈ g.granules, b < 8192 ∧ b ∉ heldGranules fs) (hnodup : g.granules.Nodup) :
    FacesSound (fs.set k { fs[k] with glyphs := tablePut fs[k].glyphs code g }) := by
  have hheld : (Face.heldGranules { fs[k] with glyphs := tablePut fs[k].glyphs code g }).Perm
      (g.granules ++ fs[k].heldGranules) := (tablePut_perm_of_none hnew).flatMap_right _
  obtain ⟨hwithin, hapart⟩ := nodup_heldGranules.mp h.once
  have hbeside (j : Fin 4) : g.granules.Disjoint fs[j].heldGranules := fun b hb hj =>
    (hfree b hb).2 (mem_heldGranules.mpr ⟨j, hj⟩)
  refine h.set (tableRising_put (h.rising k)) (h.height k) (h.advance k) (fun c g' hg' => ?_) (fun b hb => ?_)
    (nodup_heldGranules.mpr ⟨fun j => ?_, fun i j hij => ?_⟩)
  · rw [tableFind_put (h.rising k)] at hg'
    split at hg'
    · cases hg'; exact hglyph
    · exact h.glyph k c g' hg'
  · obtain ⟨j, hj⟩ := mem_heldGranules.mp hb
    rw [getElem_set_face] at hj
    split at hj
    · rcases List.mem_append.mp (hheld.subset hj) with hj | hj
      · exact (hfree b hj).1
      · exact h.granules b (mem_heldGranules.mpr ⟨k, hj⟩)
    · exact h.granules b (mem_heldGranules.mpr ⟨j, hj⟩)
  · rw [getElem_set_face]
    split
    · exact hheld.nodup_iff.mpr (List.nodup_append'.mpr ⟨hnodup, hwithin k, hbeside k⟩)
    · exact hwithin j
  · have hside (j : Fin 4) (hj : k ≠ j) :
        (Face.heldGranules { fs[k] with glyphs := tablePut fs[k].glyphs code g }).Disjoint fs[j].heldGranules :=
      fun b hb hbj => (List.mem_append.mp (hheld.subset hb)).elim (fun hb => hbeside j hb hbj)
        fun hb => hapart k j hj hb hbj
    rw [getElem_set_face, getElem_set_face]
    split
    · rename_i hi
      rw [if_neg fun hj => hij (hi.trans hj.symm)]
      exact hside j fun hj => hij (hi.trans hj)
    · split
      · rename_i hi _
        exact (hside i fun hk => hi hk.symm).symm
      · exact hapart i j hij

/-- The next chunk of a glyph's image, in the granules it holds (R126). -/
theorem FacesSound.continue (h : FacesSound fs) {code : Nat} {g : Glyph} {image : List Byte}
    (hg : tableFind fs[k].glyphs code = some g) (himage : image.length ≤ g.expected) :
    FacesSound (fs.set k { fs[k] with glyphs := tablePut fs[k].glyphs code { g with image := image } }) := by
  have hput := tablePut_of_found (v := { g with image := image }) (h.rising k) hg
  have hheld : Face.heldGranules { fs[k] with glyphs := tablePut fs[k].glyphs code { g with image := image } } =
      fs[k].heldGranules := by
    have : (tablePut fs[k].glyphs code { g with image := image }).map (fun p => p.2.granules) =
        fs[k].glyphs.map fun p => p.2.granules := by
      rw [hput]
      exact map_tableUpdate_found fun w hw => by cases hg.symm.trans hw; rfl
    exact congrArg List.flatten this
  refine h.set_sublist (hheld ▸ List.Sublist.refl _) (tableRising_put (h.rising k)) (h.height k) (h.advance k)
    fun c g' hg' => ?_
  rw [tableFind_put (h.rising k)] at hg'
  split at hg'
  · cases hg'
    obtain ⟨hlow, hhigh, hexpected, -, hgranules⟩ := h.glyph k code g hg
    exact ⟨hlow, hhigh, hexpected, himage, hgranules⟩
  · exact h.glyph k c g' hg'

end

end Sys2Proof.Machine

namespace Sys2Proof.Machine

/-! ### The Frame Clock's ranges through frame starts and pulses (R129 to R135) -/

section
variable {c : FrameClock} {s : State} {order : FrameOrder}

/-- A clock whose tick moves on. -/
theorem FrameClock.Sound.later (h : c.Sound) {n : Nat} (hn : c.now ≤ n) : ({ c with now := n } : FrameClock).Sound :=
  { h with origin := h.origin.trans hn, previous := fun p hp => (h.previous p hp).trans hn }

theorem FrameClock.Sound.frameStart (h : s.clock.Sound) {at_ : Nat} (hat : s.clock.now ≤ at_) :
    (s.frameStart order at_).clock.Sound := by
  rw [State.frameStart_clock]
  exact { h with origin := le_rfl, previous := fun p hp => (h.previous p hp).trans hat }

theorem FrameClock.Sound.periodExpiry (h : s.clock.Sound) : (s.periodExpiry order).clock.Sound := by
  unfold State.periodExpiry
  split
  · exact h
  · exact h.frameStart (Nat.le_max_left _ _)

/-- A clock that lost its reference is in HOLDOVER, with at most one pulse counted (R134). -/
theorem FrameClock.Sound.refLost (h : s.clock.Sound) (hlock : s.clock.lock ≠ .free) {n : Nat} (hn : n ≤ 1) :
    (s.refLost n).clock.Sound :=
  { h with
    free := ⟨fun h => (by cases h), fun hsource => absurd (h.free.mpr hsource) hlock⟩
    count := by dsimp only [State.refLost, State.raise_clock]; omega
    counting := fun _ => by dsimp only [State.refLost, State.raise_clock]; omega }

/-- The end of a window, measured from any tick at which its frame start is not past, keeps the clock's ranges (R134). -/
theorem FrameClock.Sound.windowEnd (h : s.clock.Sound) : (s.windowEnd order).clock.Sound := by
  by_cases hlock : s.clock.lock = .locked
  · rw [windowEnd_of_locked hlock]
    refine (h.frameStart (Nat.le_max_left _ _)).refLost ?_ (Nat.zero_le _)
    rw [State.frameStart_clock]
    simp [hlock]
  · rwa [windowEnd_of_unlocked hlock]

/-- A counted pulse: the count reaches 255 only where it locks the clock (R132, R133). -/
theorem FrameClock.Sound.countPulse (h : s.clock.Sound) (hlock : s.clock.lock = .seek ∨ s.clock.lock = .holdover) :
    (s.countPulse order).clock.Sound := by
  have hfree : s.clock.lock ≠ .free := by rcases hlock with e | e <;> simp [e]
  have hunlocked : s.clock.lock ≠ .locked := by rcases hlock with e | e <;> simp [e]
  have hcount : s.clock.countNow ≤ 255 := by
    have := h.counting hunlocked
    unfold FrameClock.countNow
    split <;> omega
  have hnow (p : Nat) (hp : some s.clock.now = some p) : p ≤ s.clock.now := by cases hp; exact le_rfl
  have hlocks : (s.counted s.clock.countNow).locks.clock.Sound :=
    { h with
      free := ⟨fun h => (by cases h), fun hsource => absurd (h.free.mpr hsource) hfree⟩
      count := hcount
      counting := fun hl => absurd rfl hl
      previous := hnow }
  rw [countPulse_eq]
  split
  · split
    · exact hlocks.frameStart le_rfl
    · exact { hlocks with origin := le_rfl }
  · rename_i hfew
    have := h.relock
    exact
      { h with
        count := hcount
        counting := fun _ => by dsimp only [State.counted]; omega
        previous := hnow }

theorem FrameClock.Sound.lockedPulse (h : s.clock.Sound) (hlock : s.clock.lock = .locked) :
    (s.lockedPulse order).clock.Sound := by
  have hpulsed : s.pulsed.clock.Sound := { h with previous := fun p hp => by cases hp; exact le_rfl }
  rcases Nat.lt_or_ge (s.clock.now + s.clock.period / 200) (s.clock.origin + s.clock.period) with hearly | hinside
  · rw [lockedPulse_early hearly]
    exact hpulsed.refLost (by simp [State.pulsed, hlock]) le_rfl
  · rw [lockedPulse_inside hinside]
    exact hpulsed.frameStart le_rfl

/-- A reference pulse (R131 to R134). When the end of the window comes first, its frame start lies before the pulse. -/
theorem FrameClock.Sound.pulseAt (h : s.clock.Sound) : (s.pulseAt order).clock.Sound := by
  cases hlock : s.clock.lock with
  | free => rwa [pulseAt_of_free hlock]
  | seek => rw [pulseAt_of_counting (.inl hlock)]; exact h.countPulse (.inl hlock)
  | holdover => rw [pulseAt_of_counting (.inr hlock)]; exact h.countPulse (.inr hlock)
  | locked =>
    rcases Nat.lt_or_ge (s.clock.origin + s.clock.period + s.clock.period / 200) s.clock.now with hlate | htimely
    · obtain ⟨u, hu, hheld, hpulse⟩ := pulseAt_of_late (order := order) hlock hlate
      rw [hpulse]
      refine FrameClock.Sound.countPulse ?_ (.inr hheld)
      rw [windowEnd_of_locked (s := { s with clock := { s.clock with now := s.clock.windowDue } }) hlock] at hu
      have hclock : u.clock = { s.clock with
          now := s.clock.windowDue, origin := s.clock.windowDue, counter := s.clock.counter + 1
          lock := .holdover, consistent := 0 } := by
        rw [hu, State.refLost, State.raise_clock, State.frameStart_clock]
        dsimp only
        rw [show max s.clock.windowDue (s.clock.origin + s.clock.period + s.clock.period / 200) = s.clock.windowDue from
          Nat.max_self _]
      rw [hclock]
      exact
        { h with
          free := ⟨fun h => (by cases h), fun hsource => by rw [h.free.mpr hsource] at hlock; cases hlock⟩
          count := Nat.zero_le _
          counting := fun _ => Nat.zero_le _
          origin := Nat.le_of_lt hlate }
    · rw [pulseAt_of_locked hlock htimely]
      exact h.lockedPulse hlock

/-- The clock a TIMING_SETUP with fields in range leaves (R135). -/
theorem FrameClock.Sound.setUp (h : c.Sound) (source : ClockSource) {p r : Nat} (hp : 270000 ≤ p ∧ p ≤ 2700000)
    (hr : 1 ≤ r ∧ r ≤ 255) : (c.setUp source p r).Sound := by
  have hnone (q : Nat) (hq : (none : Option Nat) = some q) : q ≤ c.now := by cases hq
  have restarts (lock : LockState) (hfree : lock = .free ↔ source = .free) : ({ c with
      source := source, period := p, relock := r, lock := lock, consistent := 0, previousPulse := none } :
        FrameClock).Sound :=
    ⟨hfree, hp, hr, Nat.zero_le _, fun _ => Nat.zero_le _, h.origin, hnone⟩
  cases source with
  | free => exact restarts .free (by simp)
  | reference =>
    by_cases hnew : c.lock = .free ∨ p ≠ c.period
    · rw [FrameClock.setUp_seek hnew]
      exact restarts .seek (by simp)
    · obtain ⟨hlock, hperiod⟩ := not_or.mp hnew
      rw [FrameClock.setUp_kept hlock (not_not.mp hperiod)]
      exact { h with free := ⟨fun e => absurd e hlock, fun e => by cases e⟩, relock := hr }

theorem FrameClock.Sound.timingSetup {b : List Byte} (h : s.clock.Sound) :
    (timingSetupRule order b s).1.clock.Sound := by
  by_cases hbad : TimingBad b
  · rwa [timingSetupRule_of_bad hbad]
  · obtain ⟨hsource, hlow, hhigh, hrelock⟩ : ¬ 1 < field b 0 1 ∧ ¬ field b 1 4 < 270000 ∧ ¬ 2700000 < field b 1 4 ∧
        ¬ field b 5 1 = 0 := by simpa only [TimingBad, not_or] using hbad
    have hset (source : ClockSource) : (s.clock.setUp source (field b 1 4) (field b 5 1)).Sound :=
      h.setUp source (by omega) ⟨by omega, Nat.le_of_lt_succ (field_one_lt b 5)⟩
    obtain ⟨source, hcode⟩ : ∃ source, clockSource? (field b 0 1) = some source :=
      ⟨_, clockSource?_some (Nat.le_of_not_lt hsource)⟩
    rw [timingSetupRule_of_good hbad hcode, accept_fst]
    split
    · exact FrameClock.Sound.frameStart (s := { s with clock := _ }) (hset source)
        (Nat.le_of_eq (s.clock.setUp_times source _ _).1)
    · exact hset source

theorem FrameClock.Sound.softReset (h : c.Sound) : c.softReset.Sound where
  free := by
    have : c.softReset.lock = match c.source with | .free => .free | .reference => .seek := rfl
    rw [this]
    show _ ↔ c.source = .free
    cases c.source <;> simp
  period := h.period
  relock := h.relock
  count := Nat.zero_le _
  counting := fun _ => Nat.zero_le _
  origin := le_rfl
  previous := fun p hp => by cases hp

end

/-! ### The Compositor (R141 to R148) -/

theorem Compositor.Sound.compositorFrame {s : State} (h : s.compositor.Sound) : s.compositorFrame.compositor.Sound := by
  have hpalette := h.palette
  unfold State.compositorFrame
  split
  · exact ⟨by simp, hpalette⟩
  · dsimp only
    split
    · exact h
    · exact ⟨by simp, hpalette⟩
  · exact h

end Sys2Proof.Machine

namespace Sys2Proof.Machine

/-! ### Work that keeps every store and timing block sound (R75, R107, R115, R121, R129, R142) -/

/-- t has sound stores, a sound refresh queue and a sound Compositor where s has. -/
structure KeepsStores (s t : State) : Prop where
  texts : TextsSound s.texts → TextsSound t.texts
  faces : FacesSound s.faces → FacesSound t.faces
  symbols : tableRising s.symbols = true → tableRising t.symbols = true
  slots : KeepsSlots s t
  compositor : s.compositor.Sound → t.compositor.Sound

/-- The link k' is k, but that some or all of the frames that wait for the Decoder may be lost. -/
def Link.Spares (k k' : Link) : Prop := ∃ q : List Frame, k' = { k with inbound := q } ∧ q.length ≤ k.inbound.length

/-- t is s after work that does not reach RESET and the link, but for frames lost, and keeps every block sound but perhaps
the Frame Clock. -/
structure KeepsBesideClock (s t : State) : Prop where
  inReset : t.inReset = s.inReset
  link : s.link.Spares t.link
  stores : KeepsStores s t

/-- t is s after work that does not reach RESET and the link, but for frames lost, and keeps every block sound. -/
structure KeepsBlocks (s t : State) : Prop where
  beside : KeepsBesideClock s t
  clock : s.clock.Sound → t.clock.Sound

/-- All that `KeepsBlocks` speaks of. -/
def State.blocks (s : State) : (Bool × Link × FrameClock × Compositor) ×
    Table TextRec × Vector Face 4 × Table SymbolRec × Table Nat × List Nat :=
  ((s.inReset, s.link, s.clock, s.compositor), s.texts, s.faces, s.symbols, s.slots)

section
variable {s t u : State} {k : Link}

theorem Link.Spares.refl (k : Link) : k.Spares k := ⟨k.inbound, rfl, le_rfl⟩

theorem Link.Spares.of_eq {k' : Link} (h : k' = k) : k.Spares k' := h ▸ .refl k

theorem Link.Spares.trans {k' k'' : Link} (a : k.Spares k') (b : k'.Spares k'') : k.Spares k'' := by
  obtain ⟨q, rfl, hq⟩ := a
  obtain ⟨q', rfl, hq'⟩ := b
  exact ⟨q', rfl, hq'.trans hq⟩

theorem KeepsStores.refl (s : State) : KeepsStores s s := ⟨id, id, id, .refl s, id⟩

theorem KeepsStores.trans (a : KeepsStores s t) (b : KeepsStores t u) : KeepsStores s u :=
  ⟨b.texts ∘ a.texts, b.faces ∘ a.faces, b.symbols ∘ a.symbols, a.slots.trans b.slots, b.compositor ∘ a.compositor⟩

/-- Work of lanes, symbols and the Formatter changes of the texts and symbols only counts, views and flags. -/
theorem KeepsStores.of_work (w : LaneWork s t) (hslots : KeepsSlots s t) : KeepsStores s t where
  texts h := h.congr <| by
    have := congrArg (List.map fun p : Nat × List Nat × List Byte => (p.1, p.2.1, p.2.2.length)) w.texts
    rwa [List.map_map, List.map_map] at this
  faces h := w.faces ▸ h
  symbols h := by
    have := congrArg (List.map Prod.fst) w.symbols
    rw [List.map_map, List.map_map] at this
    have hslots : t.symbols.map Prod.fst = s.symbols.map Prod.fst := this
    unfold tableRising at h ⊢
    rwa [hslots]
  slots := hslots
  compositor h := w.compositor ▸ h

theorem KeepsBesideClock.trans (a : KeepsBesideClock s t) (b : KeepsBesideClock t u) : KeepsBesideClock s u :=
  ⟨b.inReset.trans a.inReset, a.link.trans b.link, a.stores.trans b.stores⟩

theorem KeepsBesideClock.setClock (s : State) (c : FrameClock) : KeepsBesideClock s { s with clock := c } :=
  ⟨rfl, .refl _, id, id, id, .of_slots rfl, id⟩

theorem KeepsBesideClock.raise (s : State) (f : Factor) : KeepsBesideClock s (s.raise f) :=
  ⟨rfl, .refl _, id, id, id, .of_slots rfl, id⟩

theorem KeepsBesideClock.ite {p : Prop} [Decidable p] (ht : KeepsBesideClock s t) (hu : KeepsBesideClock s u) :
    KeepsBesideClock s (if p then t else u) := by
  split <;> assumption

theorem KeepsBlocks.of_work (w : LaneWork s t) (hslots : KeepsSlots s t) : KeepsBlocks s t :=
  ⟨⟨w.inReset, .of_eq w.link, .of_work w hslots⟩, fun h => w.clock ▸ h⟩

theorem KeepsBlocks.of_blocks (h : t.blocks = s.blocks) : KeepsBlocks s t := by
  simp only [State.blocks, Prod.mk.injEq] at h
  obtain ⟨⟨hreset, hlink, hclock, hcompositor⟩, htexts, hfaces, hsymbols, hslots⟩ := h
  exact ⟨⟨hreset, .of_eq hlink, fun h => htexts ▸ h, fun h => hfaces ▸ h, fun h => hsymbols ▸ h, .of_slots hslots,
    fun h => hcompositor ▸ h⟩, fun h => hclock ▸ h⟩

theorem KeepsBlocks.refl (s : State) : KeepsBlocks s s := .of_blocks rfl

theorem KeepsBlocks.trans (a : KeepsBlocks s t) (b : KeepsBlocks t u) : KeepsBlocks s u :=
  ⟨a.beside.trans b.beside, b.clock ∘ a.clock⟩

/-- Work after which a lane, factors, inputs and the like are changed. -/
theorem KeepsBlocks.andThen (a : KeepsBlocks s t) (h : u.blocks = t.blocks) : KeepsBlocks s u := a.trans (.of_blocks h)

/-- A request refused on a check, or answered otherwise. -/
theorem KeepsBlocks.choice {p : Prop} [Decidable p] {x y : State × Reply} (hx : KeepsBlocks s x.1)
    (hy : KeepsBlocks s y.1) : KeepsBlocks s (if p then x else y).1 := by
  split <;> assumption

theorem KeepsBlocks.ite {p : Prop} [Decidable p] (ht : KeepsBlocks s t) (hu : KeepsBlocks s u) :
    KeepsBlocks s (if p then t else u) := by
  split <;> assumption

/-! ### Frame starts (R130) -/

theorem State.compositorFrame_rest (s : State) : s.compositorFrame =
    { s with compositor := s.compositorFrame.compositor, events := s.compositorFrame.events } := by
  unfold State.compositorFrame
  split
  · rfl
  · dsimp only; split <;> rfl
  · rfl

theorem KeepsStores.compositorFrame (s : State) : KeepsStores s s.compositorFrame := by
  have hsound : s.compositor.Sound → s.compositorFrame.compositor.Sound := Compositor.Sound.compositorFrame
  rw [State.compositorFrame_rest]
  exact ⟨id, id, id, .of_slots rfl, hsound⟩

theorem KeepsBesideClock.frameStart (s : State) (order : FrameOrder) (at_ : Nat) :
    KeepsBesideClock s (s.frameStart order at_) := by
  have hframe := FrameKeeps.frameStart s order at_
  have hbegun : KeepsStores s (s.frameBegun at_) := ((KeepsBesideClock.setClock s _).trans (.raise _ .frame)).stores
  have hacted : KeepsStores (s.frameBegun at_) (s.frameActed order at_) :=
    .of_work (s.frameActed_work order at_) (.foldl (.frameAct s.compositor.freezes) _ _)
  exact ⟨hframe.inReset, .of_eq hframe.link, (hbegun.trans hacted).trans (.compositorFrame _)⟩

/-! ### The lock of the Frame Clock (R131 to R134) -/

theorem KeepsBesideClock.refLost (s : State) (n : Nat) : KeepsBesideClock s (s.refLost n) :=
  (KeepsBesideClock.setClock s _).trans (.raise _ _)

theorem KeepsBesideClock.windowEnd (s : State) (order : FrameOrder) : KeepsBesideClock s (s.windowEnd order) :=
  .ite ((KeepsBesideClock.frameStart s order _).trans (.refLost _ 0)) (.setClock s s.clock)

theorem KeepsBesideClock.countPulse (s : State) (order : FrameOrder) : KeepsBesideClock s (s.countPulse order) := by
  have hcounted := KeepsBesideClock.setClock s (s.counted s.clock.countNow).clock
  have hlocks := (hcounted.trans (.setClock _ (s.counted s.clock.countNow).locks.clock)).trans (.raise _ .locked)
  rw [countPulse_eq]
  exact .ite (.ite (hlocks.trans (.frameStart _ order _)) (hlocks.trans (.setClock _ _))) hcounted

theorem KeepsBesideClock.lockedPulse (s : State) (order : FrameOrder) : KeepsBesideClock s (s.lockedPulse order) :=
  have hpulsed := KeepsBesideClock.setClock s s.pulsed.clock
  .ite (hpulsed.trans (.frameStart _ order _)) (hpulsed.trans (.refLost _ 1))

theorem KeepsBesideClock.pulseAt (s : State) (order : FrameOrder) : KeepsBesideClock s (s.pulseAt order) := by
  unfold State.pulseAt
  split
  · exact .setClock s s.clock
  case h_2 | h_3 => exact .countPulse s order
  · refine .ite ?_ (.lockedPulse s order)
    have hwindow := (KeepsBesideClock.setClock s { s.clock with now := s.clock.windowDue }).trans (.windowEnd _ order)
    exact (hwindow.trans (.setClock _ _)).trans (.countPulse _ order)

end

end Sys2Proof.Machine

namespace Sys2Proof.Machine

/-! ### Requests whose rule keeps every block sound -/

/-- A rule that keeps every block sound and the link but for frames lost, whatever its request carries. -/
def RuleKeepsBlocks (rule : List Byte → State → State × Reply) : Prop := ∀ b s, KeepsBlocks s (rule b s).1

section
variable {s t : State} {b : List Byte}

/-! Event Unit requests -/

theorem eventEnableRule_keepsBlocks : RuleKeepsBlocks eventEnableRule := fun _ s => withGroup_keeps (.refl s) fun _ =>
  .of_blocks rfl

theorem eventPriorityRule_keepsBlocks : RuleKeepsBlocks eventPriorityRule := fun _ s => withGroup_keeps (.refl s) fun _ => by
  split <;> exact .of_blocks rfl

theorem eventNextRule_keepsBlocks : RuleKeepsBlocks eventNextRule := fun _ s => by
  unfold eventNextRule
  split <;> exact .of_blocks rfl

theorem eventReadRule_keepsBlocks : RuleKeepsBlocks eventReadRule := fun _ s => withGroup_keeps (.refl s) fun _ =>
  .of_blocks rfl

theorem attnMaskRule_keepsBlocks : RuleKeepsBlocks attnMaskRule := fun _ s => by
  unfold attnMaskRule
  split <;> exact .of_blocks rfl

/-! Lane and cue requests -/

theorem laneSetupRule_keepsBlocks : RuleKeepsBlocks laneSetupRule := fun _ s => withLane_keeps (.refl s) fun _ =>
  .choice (.refl s) (by
    split
    · exact .refl s
    · exact .choice (.refl s) (.of_blocks rfl))

theorem KeepsBlocks.freeItems (s : State) (ks : List Nat) : KeepsBlocks s (s.freeItems ks) :=
  .of_work (.freeItems s ks) (.freeItems s ks)

theorem laneOffRule_keepsBlocks : RuleKeepsBlocks laneOffRule := fun _ s => withLane_keeps (.refl s) fun i =>
  .choice ((KeepsBlocks.freeItems s (s.lane i).queued).andThen rfl) (.refl s)

theorem KeepsBlocks.startFrom (s : State) (i : LaneId) (r : ReturnState) : KeepsBlocks s (s.startFrom i r) :=
  .of_work (.startFrom s i r) (.startFrom s i r)

theorem KeepsBlocks.startArmed (s : State) (i : LaneId) : KeepsBlocks s (s.startArmed i) :=
  .of_work (.startArmed s i) (.startArmed s i)

theorem startNow_keepsBlocks (i : LaneId) : KeepsBlocks s (startNow s i).1 := by
  unfold startNow
  dsimp only
  split
  · exact .startFrom s i _
  · exact .startFrom s i _
  · exact .startArmed s i
  · exact .choice (.of_blocks rfl) (.refl s)
  all_goals exact .refl s

theorem armRule_keepsBlocks (i : LaneId) (code gpi mask : Nat) : KeepsBlocks s (armRule s i code gpi mask).1 := by
  unfold armRule
  split
  · exact .refl s
  · split <;> exact .of_blocks rfl

theorem laneStartRule_keepsBlocks : RuleKeepsBlocks laneStartRule := fun _ s => withLane_keeps (.refl s) fun i =>
  .choice (.refl s) (.choice (startNow_keepsBlocks i) (armRule_keepsBlocks i _ _ _))

theorem laneStopRule_keepsBlocks (late : LaneSet) : RuleKeepsBlocks (laneStopRule late) := fun _ s =>
  withLane_keeps (.refl s) fun _ => by
    split
    · exact .refl s
    · split
      · rename_i h; exact .of_work (.applyStop h) (.applyStop h)
      · exact .refl s

theorem laneSpeedRule_keepsBlocks : RuleKeepsBlocks laneSpeedRule := fun _ s => withLane_keeps (.refl s) fun _ =>
  .choice (.refl s) (.of_blocks rfl)

theorem laneStageRule_keepsBlocks : RuleKeepsBlocks laneStageRule := fun _ s => withLane_keeps (.refl s) fun _ =>
  .choice (.refl s) (.choice (.of_blocks rfl) (.choice (.refl s) (.of_blocks rfl)))

theorem laneResetRule_keepsBlocks : RuleKeepsBlocks laneResetRule := fun _ s => withLane_keeps (.refl s) fun i =>
  .choice (.refl s) ((KeepsBlocks.freeItems s ((s.lane i).visible ++ (s.lane i).queued)).andThen rfl)

theorem laneQueryRule_keepsBlocks : RuleKeepsBlocks laneQueryRule := fun _ s => withLane_keeps (.refl s) fun _ => .refl s

theorem holdReleaseRule_keepsBlocks : RuleKeepsBlocks holdReleaseRule := fun _ s => withLane_keeps (.refl s) fun _ =>
  .choice (.of_blocks rfl) (.refl s)

theorem cueSetRule_keepsBlocks : RuleKeepsBlocks cueSetRule := fun _ s => withCue_keeps (.refl s) fun _ _ =>
  .choice (.refl s) (by
    split
    · exact .refl s
    · split <;> exact .of_blocks rfl)

theorem cueClearRule_keepsBlocks : RuleKeepsBlocks cueClearRule := fun _ s => withCue_keeps (.refl s) fun _ _ =>
  .choice (.of_blocks rfl) (.refl s)

theorem cueQueryRule_keepsBlocks : RuleKeepsBlocks cueQueryRule := fun _ s => withCue_keeps (.refl s) fun _ _ => .refl s

/-! Item requests -/

theorem KeepsBlocks.addReference (s : State) (c : Content) : KeepsBlocks s (s.addReference c) :=
  .of_work (.addReference s c) (.addReference s c)

theorem KeepsBlocks.dropReference (s : State) (c : Content) : KeepsBlocks s (s.dropReference c) :=
  .of_work (.dropReference s c) (.dropReference s c)

theorem makeItem_keepsBlocks (i : LaneId) (b : List Byte) (off : Nat) (ink : Fin 16) (c : Content)
    (place : Nat → Lane → Lane) : KeepsBlocks s (makeItem s i b off ink c place).1 := by
  unfold makeItem
  split
  · exact .refl s
  · rename_i slot _
    have hput (items : Table Item) :
        KeepsBlocks s (State.updLane { s with pool := { s.pool with items := items } } i (place slot)) := .of_blocks rfl
    exact (hput _).trans (.addReference _ c)

theorem itemAppendRule_keepsBlocks : RuleKeepsBlocks itemAppendRule := fun _ s => withLane_keeps (.refl s) fun i =>
  .choice (.refl s) (by
    split
    · exact .refl s
    · split
      · exact .refl s
      · exact makeItem_keepsBlocks i _ _ _ _ _)

theorem itemInsertRule_keepsBlocks : RuleKeepsBlocks itemInsertRule := fun _ s => withLane_keeps (.refl s) fun i =>
  .choice (.refl s) (by
    split
    · exact .refl s
    · split
      · exact .refl s
      · split
        · exact .refl s
        · exact makeItem_keepsBlocks i _ _ _ _ _)

theorem itemReplaceRule_keepsBlocks : RuleKeepsBlocks itemReplaceRule := fun _ s => withItem_keeps (.refl s) fun _ it =>
  .choice (.refl s) (by
    split
    · exact .refl s
    · refine .choice (.refl s) ?_
      split
      · exact .refl s
      · exact ((KeepsBlocks.addReference s _).trans (.dropReference _ it.content)).andThen rfl)

theorem itemRemoveRule_keepsBlocks : RuleKeepsBlocks itemRemoveRule := fun _ s => withItem_keeps (.refl s) fun k _ =>
  .choice (.of_blocks rfl) (.of_work (.freeItem s k) (.freeItem s k))

theorem itemPassesRule_keepsBlocks : RuleKeepsBlocks itemPassesRule := fun _ s => withItem_keeps (.refl s) fun _ _ =>
  .of_blocks rfl

theorem itemQueryRule_keepsBlocks : RuleKeepsBlocks itemQueryRule := fun _ s => withItem_keeps (.refl s) fun _ _ => .refl s

theorem runClearRule_keepsBlocks : RuleKeepsBlocks runClearRule := fun _ s => withLane_keeps (.refl s) fun i =>
  .freeItems s (s.lane i).queued

theorem runListRule_keepsBlocks : RuleKeepsBlocks runListRule := fun _ s => withLane_keeps (.refl s) fun _ => .refl s

/-! Symbol and class requests -/

/-- The Symbol Table replaced by one in rising order. -/
theorem KeepsBlocks.of_symbols {x : Table SymbolRec} (h : tableRising s.symbols = true → tableRising x = true) :
    KeepsBlocks s { s with symbols := x } :=
  ⟨⟨rfl, .refl _, id, id, h, .of_slots rfl, id⟩, id⟩

theorem KeepsBlocks.updSymbol (s : State) (k : Nat) (f : SymbolRec → SymbolRec) : KeepsBlocks s (s.updSymbol k f) :=
  .of_symbols fun h => (tableRising_update f).trans h

theorem KeepsBlocks.offerView (s : State) (k : Nat) : KeepsBlocks s (s.offerView k) :=
  .of_work (.offerView s k) (.offerView s k)

theorem symDefineRule_keepsBlocks : RuleKeepsBlocks symDefineRule := fun _ s => by
  unfold symDefineRule
  dsimp only
  split
  · exact .refl s
  · refine .choice (.refl s) (.choice (.refl s) ?_)
    split
    · exact .refl s
    · exact .of_symbols tableRising_put

theorem symPriceRule_keepsBlocks : RuleKeepsBlocks symPriceRule := fun _ s => withSymbol_keeps (.refl s) fun k _ =>
  .choice (.refl s) (.choice (.refl s) (.choice (.refl s) (by
    refine KeepsBlocks.trans ?_ (.offerView _ k)
    exact .ite ((KeepsBlocks.updSymbol s k _).andThen rfl) (.updSymbol s k _))))

theorem symReferenceRule_keepsBlocks : RuleKeepsBlocks symReferenceRule := fun _ s => withSymbol_keeps (.refl s) fun k _ =>
  .choice (.refl s) ((KeepsBlocks.updSymbol s k _).trans (.offerView _ k))

theorem symHaltRule_keepsBlocks : RuleKeepsBlocks symHaltRule := fun _ s => withSymbol_keeps (.refl s) fun k _ =>
  .choice (.refl s) ((KeepsBlocks.updSymbol s k _).trans (.offerView _ k))

theorem symResumeRule_keepsBlocks : RuleKeepsBlocks symResumeRule := fun _ s => withSymbol_keeps (.refl s) fun k _ =>
  .choice ((KeepsBlocks.updSymbol s k _).trans (.offerView _ k)) (.refl s)

theorem symRemoveRule_keepsBlocks : RuleKeepsBlocks symRemoveRule := fun _ s => withSymbol_keeps (.refl s) fun _ _ =>
  .choice (.refl s) (.of_symbols tableRising_erase)

theorem symQueryRule_keepsBlocks : RuleKeepsBlocks symQueryRule := fun _ s => withSymbol_keeps (.refl s) fun _ _ => .refl s

theorem symScanRule_keepsBlocks : RuleKeepsBlocks symScanRule := fun _ s => .choice (.refl s) (.refl s)

theorem classSetupRule_keepsBlocks : RuleKeepsBlocks classSetupRule := fun _ s => by
  unfold classSetupRule
  split <;> exact .of_blocks rfl

/-! Template and text requests -/

theorem templateSetRule_keepsBlocks : RuleKeepsBlocks templateSetRule := fun _ s => by
  unfold templateSetRule
  split
  · exact .choice (.refl s) (.choice (.refl s) (.of_blocks rfl))
  · exact .refl s

theorem templateQueryRule_keepsBlocks : RuleKeepsBlocks templateQueryRule := fun _ s => by
  unfold templateQueryRule
  split <;> exact .refl s

/-- The Text Pool replaced by a sound one. -/
theorem KeepsBlocks.of_texts {x : Table TextRec} (h : TextsSound s.texts → TextsSound x) :
    KeepsBlocks s { s with texts := x } :=
  ⟨⟨rfl, .refl _, h, id, id, .of_slots rfl, id⟩, id⟩

/-- The text that a TEXT_CREATE which passes its checks forms (R117). -/
theorem TextsSound.create (h : TextsSound s.texts) (hlength : ¬ (field b 1 2 = 0 ∨ 1024 < field b 1 2)) {id : Nat}
    (hnew : tableFind s.texts id = none) (hroom : ¬ 256 - (usedBlocks s.texts).length < (field b 1 2 + 31) / 32) :
    TextsSound (tablePut s.texts id (createdText b s)) := by
  have : 1 ≤ (field b 1 2 + 31) / 32 := by omega
  obtain ⟨hcount, hascending, hfree, -⟩ :=
    takeLowest_spec (used := usedBlocks s.texts) (limit := 256) (need := (field b 1 2 + 31) / 32) (by omega)
  have hcodes : (createdText b s).codes.length = field b 1 2 := List.length_replicate
  refine h.put hnew ⟨by omega, by omega, ?_⟩ hfree (hascending.imp Nat.ne_of_lt)
  rw [hcodes]
  exact hcount

theorem textCreateRule_keepsBlocks : RuleKeepsBlocks textCreateRule := fun b s => by
  by_cases hlength : field b 1 2 = 0 ∨ 1024 < field b 1 2
  · have : textCreateRule b s = refuse s .badParam := if_pos hlength
    rw [this]; exact .refl s
  · rw [textCreateRule_of_length hlength]
    split
    · exact .refl s
    · rename_i hnew
      split
      · exact .refl s
      · rename_i hroom
        exact .of_texts fun h => h.create hlength (by simpa [State.text?] using hnew) hroom

theorem textWriteRule_keepsBlocks : RuleKeepsBlocks textWriteRule := fun b s => by
  cases htext : s.text? (field b 0 1) with
  | none => rw [textWriteRule_of_none htext]; exact .refl s
  | some r =>
    rw [textWriteRule_of_some htext]
    split
    · exact .refl s
    · rename_i hfit
      refine .choice (.refl s) (.of_texts fun h => h.update fun r' hr' => ⟨rfl, length_overwrite ?_⟩)
      cases htext.symm.trans hr'
      rw [List.length_drop]
      omega

theorem textFreeRule_keepsBlocks : RuleKeepsBlocks textFreeRule := fun b s => by
  cases htext : s.text? (field b 0 1) with
  | none => rw [textFreeRule_of_none htext]; exact .refl s
  | some r =>
    rw [textFreeRule_of_some htext]
    exact .choice (.refl s) (.of_texts TextsSound.erase)

/-! Face requests -/

/-- A face replaced, with the store sound after it. -/
theorem KeepsBlocks.setFace {k : Fin 4} {f : Face} (h : FacesSound s.faces → FacesSound (s.faces.set k f)) :
    KeepsBlocks s (s.setFace k f) :=
  ⟨⟨rfl, .refl _, id, h, id, .of_slots rfl, id⟩, id⟩

theorem faceSetupRule_keepsBlocks : RuleKeepsBlocks faceSetupRule := fun b s => by
  unfold faceSetupRule
  dsimp only
  split
  · exact .refl s
  · split
    · exact .refl s
    · rename_i hrange
      refine .choice (.refl s) (.choice (.refl s) (.setFace fun h => h.set_sublist (List.nil_sublist _) rfl ?_ ?_ ?_))
      · dsimp only; omega
      · dsimp only; omega
      · exact fun _ _ hg => by cases hg

/-- A load at offset 0 that passes its checks and finds room (R125). -/
theorem FacesSound.start {k : Fin 4} {code advance : Nat} {data : List Byte} (h : FacesSound s.faces)
    (hadvance : ¬ (advance = 0 ∨ 63 < advance)) (hfit : data.length ≤ expectedBytes s.faces[k].height advance)
    (hroom : ¬ 8192 - (s.heldWithout k code).length < (expectedBytes s.faces[k].height advance + 63) / 64) :
    FacesSound (s.faces.set k { s.faces[k] with
      glyphs := tablePut (s.faces[k].without code).glyphs code (startedGlyph s k code advance data) }) := by
  have hpixels : 16 * 1 ≤ s.faces[k].height * advance := Nat.mul_le_mul (h.height k).1 (by omega)
  have hneed : 1 ≤ (expectedBytes s.faces[k].height advance + 63) / 64 := by
    simp only [expectedBytes, ceilDiv]; omega
  obtain ⟨hcount, hascending, hfree, -⟩ := takeLowest_spec (used := s.heldWithout k code) (limit := 8192)
    (need := (expectedBytes s.faces[k].height advance + 63) / 64) (by omega)
  have hface : (s.faces.set k (s.faces[k].without code))[k] = s.faces[k].without code := by
    rw [getElem_set_face, if_pos rfl]
  have hload := (h.without k code).load (k := k) (code := code) (g := startedGlyph s k code advance data)
  rw [hface, Vector.set_set] at hload
  refine hload ?_ ⟨?_, ?_, rfl, hfit, hcount⟩ hfree (hascending.imp Nat.ne_of_lt)
  · rw [Face.tableFind_without (h.rising k), if_pos rfl]
  · show 1 ≤ advance; omega
  · show advance ≤ 63; omega

theorem glyphStart_keepsBlocks (k : Fin 4) (code advance : Nat) (data : List Byte) :
    KeepsBlocks s (glyphStart s k code advance data).1 := by
  by_cases hadvance : advance = 0 ∨ 63 < advance
  · have : glyphStart s k code advance data = refuse s .badParam := if_pos hadvance
    rw [this]; exact .refl s
  rcases Nat.lt_or_ge (expectedBytes s.faces[k].height advance) data.length with hlong | hfit
  · have : glyphStart s k code advance data = refuse s .range := (if_neg hadvance).trans (if_pos hlong)
    rw [this]; exact .refl s
  rw [glyphStart_of_checked hadvance hfit]
  split
  · exact .setFace fun h => h.without k code
  · rename_i hroom
    exact .setFace fun h => h.start hadvance hfit hroom

theorem glyphContinue_keepsBlocks (k : Fin 4) (code offset : Nat) (data : List Byte) :
    KeepsBlocks s (glyphContinue s k code offset data).1 := by
  cases hg : tableFind s.faces[k].glyphs code with
  | none => rw [glyphContinue_of_none hg]; exact .refl s
  | some g =>
    rw [glyphContinue_of_some hg]
    split
    · exact .refl s
    · rename_i hoffset
      split
      · exact .refl s
      · rename_i hfit
        refine .setFace fun h => h.continue hg ?_
        rw [List.length_append, ← not_not.mp hoffset]
        exact Nat.not_lt.mp hfit

theorem glyphLoadRule_keepsBlocks : RuleKeepsBlocks glyphLoadRule := fun _ s => by
  unfold glyphLoadRule
  split
  · exact .refl s
  · exact .choice (.refl s) (.choice (glyphStart_keepsBlocks ..) (glyphContinue_keepsBlocks ..))

/-! Clock, input and output requests -/

/-- TIMING_SETUP sets the clock, and may make a frame start then (R135). -/
theorem timingSetupRule_cases (order : FrameOrder) (b : List Byte) (s : State) : ∃ c : FrameClock,
    (timingSetupRule order b s).1 = { s with clock := c } ∨
    (timingSetupRule order b s).1 = State.frameStart { s with clock := c } order s.clock.now := by
  by_cases hbad : TimingBad b
  · exact ⟨s.clock, .inl (by rw [timingSetupRule_of_bad hbad]; rfl)⟩
  · obtain ⟨source, hcode⟩ : ∃ source, clockSource? (field b 0 1) = some source :=
      ⟨_, clockSource?_some (Nat.le_of_not_lt fun hs => hbad (.inl hs))⟩
    refine ⟨s.clock.setUp source (field b 1 4) (field b 5 1), ?_⟩
    rw [timingSetupRule_of_good hbad hcode, accept_fst]
    split
    · exact .inr rfl
    · exact .inl rfl

theorem timingSetupRule_keepsBlocks (order : FrameOrder) : RuleKeepsBlocks (timingSetupRule order) := fun b s => by
  have hclock : s.clock.Sound → (timingSetupRule order b s).1.clock.Sound := fun h => h.timingSetup
  obtain ⟨c, hset | hstart⟩ := timingSetupRule_cases order b s
  · rw [hset] at hclock ⊢
    exact ⟨.setClock s c, hclock⟩
  · rw [hstart] at hclock ⊢
    exact ⟨(KeepsBesideClock.setClock s c).trans (.frameStart _ order _), hclock⟩

theorem gpiSetupRule_keepsBlocks : RuleKeepsBlocks gpiSetupRule := fun _ s => by
  unfold gpiSetupRule
  split <;> exact .of_blocks rfl

/-- The Compositor replaced by a sound one. -/
theorem KeepsBlocks.of_compositor {c : Compositor} (h : s.compositor.Sound → c.Sound) :
    KeepsBlocks s { s with compositor := c } :=
  ⟨⟨rfl, .refl _, id, id, id, .of_slots rfl, h⟩, id⟩

theorem paletteSetRule_keepsBlocks : RuleKeepsBlocks paletteSetRule := fun _ s => by
  unfold paletteSetRule
  dsimp only
  split
  · exact .refl s
  · rename_i k _
    split
    · exact .refl s
    · rename_i hrange
      refine .of_compositor fun h => ⟨h.inFlight, fun j => ?_⟩
      by_cases hj : j = k
      · subst hj
        simp only [Fin.getElem_fin, Vector.getElem_set_self]
        omega
      · have hne : k.val ≠ j.val := fun hv => hj (Fin.ext hv.symm)
        simpa only [Fin.getElem_fin, Vector.getElem_set_ne _ _ hne] using h.palette j

theorem outputSetupRule_keepsBlocks : RuleKeepsBlocks outputSetupRule := fun _ s => by
  unfold outputSetupRule
  split
  · exact .refl s
  · exact .of_compositor fun h => ⟨h.inFlight, h.palette⟩

theorem outputResumeRule_keepsBlocks : RuleKeepsBlocks outputResumeRule := fun _ s => by
  unfold outputResumeRule
  split
  · rename_i hhalted
    refine (KeepsBlocks.of_compositor fun h => ⟨?_, h.palette⟩ :
      KeepsBlocks s { s with compositor := { s.compositor with state := .idle } }).andThen rfl
    have := h.inFlight
    simp_all
  · exact .refl s
  · exact .refl s

/-! Resets -/

/-- Generations raised for slots freed one after another (R52). -/
theorem GenerationsSound.softReset {p : Pool} (h : GenerationsSound p.generations) :
    GenerationsSound p.softReset.generations := by
  have bumps (ks : List Nat) (q : Pool) (hq : GenerationsSound q.generations) :
      GenerationsSound (ks.foldl Pool.bump q).generations := by
    induction ks generalizing q with
    | nil => exact hq
    | cons k ks ih => exact ih _ (hq.bump k)
  exact bumps _ _ h

theorem deviceResetRule_keepsBlocks : RuleKeepsBlocks deviceResetRule := fun _ s => by
  refine ⟨⟨rfl, ⟨[], rfl, Nat.zero_le _⟩, fun h => h.congr ?_, id, fun _ => rfl, ⟨?_, fun _ => ?_⟩, fun h => ?_⟩, ?_⟩
  · show (s.texts.map _).map _ = _
    rw [List.map_map]; rfl
  · exact GenerationsSound.softReset
  · exact ⟨Nat.zero_le _, .nil⟩
  · exact ⟨by simp [deviceResetRule, accept, State.softReset], h.palette⟩
  · exact FrameClock.Sound.softReset

end

end Sys2Proof.Machine

namespace Sys2Proof.Machine

/-! ### Requests and the rules they are served by (R172) -/

/-- The rule by which a request command is served; a command that is no listed request has none, and changes nothing by it. -/
def requestRule : Instr → List Byte → State → State × Reply
  | .ident _ _ => identRule
  | .deviceReset _ _ _ => deviceResetRule
  | .eventEnable _ _ => eventEnableRule
  | .eventPriority _ _ => eventPriorityRule
  | .eventSummary _ _ => eventSummaryRule
  | .eventNext _ _ => eventNextRule
  | .eventRead _ _ => eventReadRule
  | .attnMask _ _ => attnMaskRule
  | .laneSetup _ _ => laneSetupRule
  | .laneOff _ _ => laneOffRule
  | .laneStart _ _ => laneStartRule
  | .laneStop late _ _ => laneStopRule late
  | .laneSpeed _ _ => laneSpeedRule
  | .laneStage _ _ => laneStageRule
  | .laneReset _ _ => laneResetRule
  | .laneQuery _ _ => laneQueryRule
  | .itemAppend _ _ => itemAppendRule
  | .itemInsert _ _ => itemInsertRule
  | .itemReplace _ _ => itemReplaceRule
  | .itemRemove _ _ => itemRemoveRule
  | .itemPasses _ _ => itemPassesRule
  | .runClear _ _ => runClearRule
  | .itemQuery _ _ => itemQueryRule
  | .runList _ _ => runListRule
  | .holdRelease _ _ => holdReleaseRule
  | .cueSet _ _ => cueSetRule
  | .cueClear _ _ => cueClearRule
  | .cueQuery _ _ => cueQueryRule
  | .symDefine _ _ => symDefineRule
  | .symPrice _ _ => symPriceRule
  | .symReference _ _ => symReferenceRule
  | .symHalt _ _ => symHaltRule
  | .symResume _ _ => symResumeRule
  | .symRemove _ _ => symRemoveRule
  | .symQuery _ _ => symQueryRule
  | .symScan _ _ => symScanRule
  | .classSetup _ _ => classSetupRule
  | .templateSet _ _ => templateSetRule
  | .templateQuery _ _ => templateQueryRule
  | .textCreate _ _ => textCreateRule
  | .textWrite _ _ => textWriteRule
  | .textFree _ _ => textFreeRule
  | .faceSetup _ _ => faceSetupRule
  | .glyphLoad _ _ => glyphLoadRule
  | .storeQuery _ _ => storeQueryRule
  | .timingSetup _ order _ _ => timingSetupRule order
  | .timingQuery _ _ => timingQueryRule
  | .gpiSetup _ _ => gpiSetupRule
  | .paletteSet _ _ => paletteSetRule
  | .outputSetup _ _ => outputSetupRule
  | .outputResume _ _ => outputResumeRule
  | _ => fun _ s => accept s

section
variable {s t : State} {c : Instr} {k tag : Byte} {b : List Byte}

/-- A request command is its frame served by its rule, once the ticks it says have passed. -/
theorem exec_request (h : requestFrame c = some (k, tag, b)) (hc : c ≠ .unknownKind k tag b) (s : State) :
    exec c s = .next (serve k tag b (requestRule c) (s.elapse (passedBefore c))) := by
  cases c with
  | unknownKind => cases h; exact absurd rfl hc
  | _ => cases h <;> rfl

/-- UNKNOWN_KIND is answered where it is in hand and its kind is not listed. -/
theorem execUnknownKind_eq (k tag : Byte) (b : List Byte) (s : State) : exec (.unknownKind k tag b) s =
    .next (if bodyLengths k = none then
      ((s.inHand { kind := k, tag := tag, body := b }).map fun u => u.answered k tag 0x10 []).getD s else s) := by
  show execUnknownKind k tag b s = _
  unfold execUnknownKind
  cases bodyLengths k with
  | some _ => rfl
  | none => cases s.inHand { kind := k, tag := tag, body := b } <;> rfl

theorem requestRule_keepsBlocks (c : Instr) : RuleKeepsBlocks (requestRule c) := by
  cases c with
  | deviceReset => exact deviceResetRule_keepsBlocks
  | eventEnable => exact eventEnableRule_keepsBlocks
  | eventPriority => exact eventPriorityRule_keepsBlocks
  | eventNext => exact eventNextRule_keepsBlocks
  | eventRead => exact eventReadRule_keepsBlocks
  | attnMask => exact attnMaskRule_keepsBlocks
  | laneSetup => exact laneSetupRule_keepsBlocks
  | laneOff => exact laneOffRule_keepsBlocks
  | laneStart => exact laneStartRule_keepsBlocks
  | laneStop late => exact laneStopRule_keepsBlocks late
  | laneSpeed => exact laneSpeedRule_keepsBlocks
  | laneStage => exact laneStageRule_keepsBlocks
  | laneReset => exact laneResetRule_keepsBlocks
  | laneQuery => exact laneQueryRule_keepsBlocks
  | itemAppend => exact itemAppendRule_keepsBlocks
  | itemInsert => exact itemInsertRule_keepsBlocks
  | itemReplace => exact itemReplaceRule_keepsBlocks
  | itemRemove => exact itemRemoveRule_keepsBlocks
  | itemPasses => exact itemPassesRule_keepsBlocks
  | runClear => exact runClearRule_keepsBlocks
  | itemQuery => exact itemQueryRule_keepsBlocks
  | runList => exact runListRule_keepsBlocks
  | holdRelease => exact holdReleaseRule_keepsBlocks
  | cueSet => exact cueSetRule_keepsBlocks
  | cueClear => exact cueClearRule_keepsBlocks
  | cueQuery => exact cueQueryRule_keepsBlocks
  | symDefine => exact symDefineRule_keepsBlocks
  | symPrice => exact symPriceRule_keepsBlocks
  | symReference => exact symReferenceRule_keepsBlocks
  | symHalt => exact symHaltRule_keepsBlocks
  | symResume => exact symResumeRule_keepsBlocks
  | symRemove => exact symRemoveRule_keepsBlocks
  | symQuery => exact symQueryRule_keepsBlocks
  | symScan => exact symScanRule_keepsBlocks
  | classSetup => exact classSetupRule_keepsBlocks
  | templateSet => exact templateSetRule_keepsBlocks
  | templateQuery => exact templateQueryRule_keepsBlocks
  | textCreate => exact textCreateRule_keepsBlocks
  | textWrite => exact textWriteRule_keepsBlocks
  | textFree => exact textFreeRule_keepsBlocks
  | faceSetup => exact faceSetupRule_keepsBlocks
  | glyphLoad => exact glyphLoadRule_keepsBlocks
  | timingSetup _ order => exact timingSetupRule_keepsBlocks order
  | gpiSetup => exact gpiSetupRule_keepsBlocks
  | paletteSet => exact paletteSetRule_keepsBlocks
  | outputSetup => exact outputSetupRule_keepsBlocks
  | outputResume => exact outputResumeRule_keepsBlocks
  | _ => exact fun _ s => .refl s

end

/-! ### Steps (R172) -/

/-- Settles O1: both are the definition of a step. -/
theorem stepRunsTheFrontCommand : Obligations.StepRunsTheFrontCommand := by
  refine ⟨fun c s => rfl, fun s h => ?_⟩
  rw [step, h]

/-! ### Checks 1 and 2 of the Decoder (R172) -/

/-- Every listed kind is below 80h. -/
theorem bodyLengths_high {k : Byte} (h : 0x80 ≤ k.toNat) : bodyLengths k = none := by
  unfold bodyLengths
  split
  any_goals omega
  rfl

/-- Settles O4: a request is its frame served (`exec_request`), and a listed kind with another length is answered before its
rule (`serve_badLength`). -/
theorem unknownKindsAndBadLengthsAreRefused : Obligations.UnknownKindsAndBadLengthsAreRefused := by
  refine ⟨fun k t b s hk h => ?_, fun c k t b s hc hne _ hl h => ?_, fun k => bodyLengths_high⟩
  · rw [execUnknownKind_eq, if_pos hk, State.inHand_of_holds h]
    rfl
  · have he : (s.elapse (passedBefore c)).holds k t b := h
    rw [exec_request hc hne, serve_badLength he hl]

end Sys2Proof.Machine

namespace Sys2Proof.Machine

/-! ### The queues of the link (R171, R172) -/

section
variable {s : State} {k : Link} {f : Frame}

theorem Link.freeSlots_pos : 0 < k.freeSlots ↔ k.outbound.length + (if k.decoder.isSome then 1 else 0) < 8 := by
  unfold Link.freeSlots Config.outboundSlots
  omega

/-- Settles O5: the take and the transmitter, by the state of the queue each serves. -/
theorem linkQueuesAreServedInOrder : Obligations.LinkQueuesAreServedInOrder := by
  intro s
  refine ⟨fun f rest hfree hin hroom => ?_, fun hnot => ?_, fun f rest hsend hout => ?_, fun hidle => ?_⟩
  · have hslot : s.link.freeSlots > 0 := Link.freeSlots_pos.mpr (by simpa [hfree] using hroom)
    show Host.Outcome.next { s with link := s.link.take } = _
    simp [Link.take, hfree, hin, hslot, State.withLink]
  · have htake : s.link.take = s.link := by
      unfold Link.take
      split
      · rename_i f rest hfree hin
        have hfull : ¬ s.link.freeSlots > 0 := fun hslot => by
          have := Link.freeSlots_pos.mp hslot
          rcases hnot with h | h | h
          · exact h hfree
          · rw [hin] at h; cases h
          · omega
        exact if_neg hfull
      · rfl
    show Host.Outcome.next { s with link := s.link.take } = _
    rw [htake]
  · show Host.Outcome.next { s with link := s.link.sent } = _
    simp [Link.sent, hsend, hout, State.withLink]
  · show Host.Outcome.next { s with link := s.link.sent } = _
    simp [Link.sent, hidle]

end

/-! ### One byte examined (R167, R168) -/

/-- The state with another receiver. -/
def State.receiving (s : State) (r : Receiver) : State := { s with link := { s.link with receiver := r } }

/-- What one byte x examined at a tick does: the next state, and the bytes put back in front of those still to examine. -/
inductive ByteExamined (tick : Nat) (x : Byte) (s : State) : State → List Byte → Prop
  | discarded (h : s.link.receiver = .hunting) (hx : x ≠ Config.marker) : ByteExamined tick x s s []
  | opened (h : s.link.receiver = .hunting) (hx : x = Config.marker) :
    ByteExamined tick x s (s.receiving (.inFrame [] tick)) []
  | refused {held : List Byte} {t : Nat} (h : s.link.receiver = .inFrame held t)
    (hlen : ((held ++ [x]).headD 0).toNat < 2 ∨ 250 < ((held ++ [x]).headD 0).toNat) :
    ByteExamined tick x s ((s.receiving .hunting).raise .badFrame) []
  | kept {held : List Byte} {t : Nat} (h : s.link.receiver = .inFrame held t)
    (hlow : 2 ≤ ((held ++ [x]).headD 0).toNat) (hhigh : ((held ++ [x]).headD 0).toNat ≤ 250)
    (hshort : (held ++ [x]).length < ((held ++ [x]).headD 0).toNat + 2) :
    ByteExamined tick x s (s.receiving (.inFrame (held ++ [x]) tick)) []
  | offered {held : List Byte} {t : Nat} (h : s.link.receiver = .inFrame held t)
    (hlow : 2 ≤ ((held ++ [x]).headD 0).toNat) (hhigh : ((held ++ [x]).headD 0).toNat ≤ 250)
    (hfull : ((held ++ [x]).headD 0).toNat + 2 ≤ (held ++ [x]).length) (hsum : sumGood (held ++ [x]) = true) :
    ByteExamined tick x s ((s.receiving .hunting).offerFrame (frameOf (held ++ [x]))) []
  | again {held : List Byte} {t : Nat} (h : s.link.receiver = .inFrame held t)
    (hlow : 2 ≤ ((held ++ [x]).headD 0).toNat) (hhigh : ((held ++ [x]).headD 0).toNat ≤ 250)
    (hfull : ((held ++ [x]).headD 0).toNat + 2 ≤ (held ++ [x]).length) (hsum : sumGood (held ++ [x]) = false) :
    ByteExamined tick x s ((s.receiving .hunting).raise .badFrame) (held ++ [x])

section
variable {s t u : State} {tick : Nat} {x : Byte} {back : List Byte}

/-- Every byte is examined in one of these ways. -/
theorem exists_byteExamined (tick : Nat) (x : Byte) (s : State) : ∃ t back, ByteExamined tick x s t back := by
  cases h : s.link.receiver with
  | hunting =>
    by_cases hx : x = Config.marker
    · exact ⟨_, _, .opened h hx⟩
    · exact ⟨_, _, .discarded h hx⟩
  | inFrame held t0 =>
    by_cases hlen : ((held ++ [x]).headD 0).toNat < 2 ∨ 250 < ((held ++ [x]).headD 0).toNat
    · exact ⟨_, _, .refused h hlen⟩
    obtain ⟨hlow, hhigh⟩ := not_or.mp hlen
    rcases Nat.lt_or_ge (held ++ [x]).length (((held ++ [x]).headD 0).toNat + 2) with hshort | hfull
    · exact ⟨_, _, .kept h (Nat.not_lt.mp hlow) (Nat.not_lt.mp hhigh) hshort⟩
    cases hsum : sumGood (held ++ [x]) with
    | true => exact ⟨_, _, .offered h (Nat.not_lt.mp hlow) (Nat.not_lt.mp hhigh) hfull hsum⟩
    | false => exact ⟨_, _, .again h (Nat.not_lt.mp hlow) (Nat.not_lt.mp hhigh) hfull hsum⟩

/-- The examination goes on from what the first byte does. -/
theorem ByteExamined.examine (h : ByteExamined tick x s t back) (fuel : Nat) (rest : List Byte) :
    State.examine tick (fuel + 1) (x :: rest) s = State.examine tick fuel (back ++ rest) t := by
  cases h with
  | discarded h hx => exact State.examine_hunting_other h hx
  | opened h hx => subst hx; exact State.examine_hunting_marker h
  | refused h hlen => exact State.examine_inFrame_length h hlen
  | kept h hlow hhigh hshort => exact State.examine_inFrame_short h hlow hhigh hshort
  | offered h hlow hhigh hfull hsum => exact State.examine_inFrame_good h hlow hhigh hfull hsum
  | again h hlow hhigh hfull hsum => exact State.examine_inFrame_bad h hlow hhigh hfull hsum

/-- What every examined byte keeps, the examination of bytes keeps. -/
theorem State.examine_keeps {P : State → Prop} (hP : ∀ x s t back, P s → ByteExamined tick x s t back → P t) (fuel : Nat)
    (bs : List Byte) (h : P s) : P (State.examine tick fuel bs s) := by
  induction fuel generalizing bs s with
  | zero => exact h
  | succ fuel ih =>
    cases bs with
    | nil => exact h
    | cons x rest =>
      obtain ⟨t, back, hx⟩ := exists_byteExamined tick x s
      rw [hx.examine]
      exact ih _ (hP x s t back h hx)

/-! A good frame offered to the inbound queue (R170). -/

theorem State.offerFrame_of_room {f : Frame} (h : s.link.inbound.length < 4) :
    s.offerFrame f = s.withLink { s.link with inbound := s.link.inbound ++ [f] } := if_pos h

theorem State.offerFrame_of_slot {f : Frame} (h : 4 ≤ s.link.inbound.length)
    (hslot : s.link.outbound.length + (if s.link.decoder.isSome then 1 else 0) < 8) :
    s.offerFrame f = (s.withLink (s.link.place (replyFrame f (bare .queueFull)))).raise .queueFull :=
  (if_neg (Nat.not_lt.mpr h)).trans (if_pos (Link.freeSlots_pos.mpr hslot))

theorem State.offerFrame_of_full {f : Frame} (h : 4 ≤ s.link.inbound.length)
    (hslot : 8 ≤ s.link.outbound.length + (if s.link.decoder.isSome then 1 else 0)) :
    s.offerFrame f = s.raise .queueFull :=
  (if_neg (Nat.not_lt.mpr h)).trans (if_neg (mt Link.freeSlots_pos.mp (Nat.not_lt.mpr hslot)))

/-- What holds of the state after each of the three holds of the state after an offer. -/
theorem State.offerFrame_elim {P : State → Prop} (f : Frame)
    (hroom : s.link.inbound.length < 4 → P (s.withLink { s.link with inbound := s.link.inbound ++ [f] }))
    (hslot : s.link.outbound.length + (if s.link.decoder.isSome then 1 else 0) < 8 →
      P ((s.withLink (s.link.place (replyFrame f (bare .queueFull)))).raise .queueFull))
    (hfull : P (s.raise .queueFull)) : P (s.offerFrame f) := by
  rcases Nat.lt_or_ge s.link.inbound.length 4 with h | h
  · rw [State.offerFrame_of_room h]; exact hroom h
  rcases Nat.lt_or_ge (s.link.outbound.length + (if s.link.decoder.isSome then 1 else 0)) 8 with h' | h'
  · rw [State.offerFrame_of_slot h h']; exact hslot h'
  · rw [State.offerFrame_of_full h h']; exact hfull

@[simp] theorem State.offerFrame_receiver (s : State) (f : Frame) :
    (s.offerFrame f).link.receiver = s.link.receiver :=
  s.offerFrame_elim (P := fun t => t.link.receiver = s.link.receiver) f (fun _ => rfl) (fun _ => rfl) rfl

@[simp] theorem State.offerFrame_inReset (s : State) (f : Frame) : (s.offerFrame f).inReset = s.inReset :=
  s.offerFrame_elim (P := fun t => t.inReset = s.inReset) f (fun _ => rfl) (fun _ => rfl) rfl

theorem State.offerFrame_pending (s : State) (f : Frame) (p : List Instr) :
    State.offerFrame { s with pending := p } f = { s.offerFrame f with pending := p } := by
  rcases Nat.lt_or_ge s.link.inbound.length 4 with h | h
  · rw [State.offerFrame_of_room h, State.offerFrame_of_room (s := { s with pending := p }) h]; rfl
  rcases Nat.lt_or_ge (s.link.outbound.length + (if s.link.decoder.isSome then 1 else 0)) 8 with h' | h'
  · rw [State.offerFrame_of_slot h h', State.offerFrame_of_slot (s := { s with pending := p }) h h']; rfl
  · rw [State.offerFrame_of_full h h', State.offerFrame_of_full (s := { s with pending := p }) h h']; rfl

/-! ### The fuel of an examination -/

/-- Steps enough to examine n bytes: each refusal of a complete frame puts its bytes back but for one marker. -/
def Receiver.cost : Receiver → Nat → Nat
  | .hunting, n => n * n
  | .inFrame held _, n => n + (held.length + n) * (held.length + n + 1)

theorem Receiver.cost_mono (r : Receiver) {m n : Nat} (h : m ≤ n) : r.cost m ≤ r.cost n := by
  cases r with
  | hunting => exact Nat.mul_le_mul h h
  | inFrame held t => exact Nat.add_le_add h (Nat.mul_le_mul (by omega) (by omega))

/-- Every examined byte pays for itself and for the bytes it puts back. -/
theorem ByteExamined.cost (h : ByteExamined tick x s t back) (n : Nat) :
    t.link.receiver.cost (back.length + n) + 1 ≤ s.link.receiver.cost (n + 1) := by
  cases h with
  | discarded h hx => rw [h]; simp only [Receiver.cost, List.length_nil]; nlinarith
  | opened h hx => rw [h]; simp only [State.receiving, Receiver.cost, List.length_nil]; nlinarith
  | refused h hlen => rw [h]; simp only [State.raise_link, State.receiving, Receiver.cost, List.length_nil]; nlinarith
  | kept h hlow hhigh hshort =>
    rw [h]
    simp only [State.receiving, Receiver.cost, List.length_nil, List.length_append, List.length_singleton]
    nlinarith
  | offered h hlow hhigh hfull hsum =>
    rw [h, State.offerFrame_receiver]; simp only [State.receiving, Receiver.cost, List.length_nil]; nlinarith
  | again h hlow hhigh hfull hsum =>
    rw [h]
    simp only [State.raise_link, State.receiving, Receiver.cost, List.length_append, List.length_singleton]
    nlinarith

/-- With enough fuel, more of it changes nothing. -/
theorem State.examine_fuel {f g : Nat} {bs : List Byte} (hf : s.link.receiver.cost bs.length ≤ f)
    (hg : s.link.receiver.cost bs.length ≤ g) : State.examine tick f bs s = State.examine tick g bs s := by
  induction f generalizing bs s g with
  | zero =>
    cases bs with
    | nil => rw [State.examine_nil, State.examine_nil]
    | cons x rest =>
      obtain ⟨t, back, hx⟩ := exists_byteExamined tick x s
      have := hx.cost rest.length
      rw [List.length_cons] at hf
      omega
  | succ f ih =>
    cases bs with
    | nil => rw [State.examine_nil, State.examine_nil]
    | cons x rest =>
      obtain ⟨t, back, hx⟩ := exists_byteExamined tick x s
      have hcost := hx.cost rest.length
      rw [List.length_cons] at hf hg
      obtain ⟨g, rfl⟩ : ∃ g', g = g' + 1 := ⟨g - 1, by omega⟩
      rw [hx.examine, hx.examine]
      exact ih (by rw [List.length_append]; omega) (by rw [List.length_append]; omega)

/-- An examination leaves enough fuel for the bytes that follow. -/
theorem State.cost_examine (fuel : Nat) (bs : List Byte) (s : State) (n : Nat) :
    (State.examine tick fuel bs s).link.receiver.cost n ≤ s.link.receiver.cost (bs.length + n) := by
  induction fuel generalizing bs s with
  | zero => exact Receiver.cost_mono _ (Nat.le_add_left ..)
  | succ fuel ih =>
    cases bs with
    | nil => rw [State.examine_nil]; exact Receiver.cost_mono _ (Nat.le_add_left ..)
    | cons x rest =>
      obtain ⟨t, back, hx⟩ := exists_byteExamined tick x s
      have hcost := hx.cost (rest.length + n)
      have hrest := ih (back ++ rest) t
      rw [hx.examine]
      rw [List.length_append, Nat.add_assoc] at hrest
      rw [List.length_cons, show rest.length + 1 + n = rest.length + n + 1 by omega]
      omega

/-- Bytes examined in two parts. -/
theorem State.examine_append {f : Nat} {xs ys : List Byte} (hf : s.link.receiver.cost (xs.length + ys.length) ≤ f) :
    State.examine tick f (xs ++ ys) s = State.examine tick f ys (State.examine tick f xs s) := by
  induction f generalizing xs s with
  | zero => rfl
  | succ f ih =>
    cases xs with
    | nil => rw [State.examine_nil]; rfl
    | cons x xs =>
      obtain ⟨t, back, hx⟩ := exists_byteExamined tick x s
      have hcost := hx.cost (xs.length + ys.length)
      rw [List.length_cons, show xs.length + 1 + ys.length = xs.length + ys.length + 1 by omega] at hf
      have hback : t.link.receiver.cost ((back ++ xs).length + ys.length) ≤ f := by
        rw [List.length_append, Nat.add_assoc]; omega
      have hleft := (State.cost_examine (tick := tick) f (back ++ xs) t ys.length).trans hback
      rw [List.cons_append, hx.examine, hx.examine, ← List.append_assoc, ih hback]
      exact State.examine_fuel hleft (Nat.le_succ_of_le hleft)

end

end Sys2Proof.Machine

namespace Sys2Proof.Machine

/-! ### Bytes received one after another (R167, R168) -/

section
variable {s t : State} {tick : Nat} {x : Byte} {back : List Byte}

/-- What a byte does, it does whatever commands wait. -/
theorem ByteExamined.pending (h : ByteExamined tick x s t back) (p : List Instr) :
    ByteExamined tick x { s with pending := p } { t with pending := p } back := by
  cases h with
  | discarded h hx => exact .discarded h hx
  | opened h hx => exact .opened h hx
  | refused h hlen => exact .refused h hlen
  | kept h hlow hhigh hshort => exact .kept h hlow hhigh hshort
  | offered h hlow hhigh hfull hsum => rw [← State.offerFrame_pending]; exact .offered h hlow hhigh hfull hsum
  | again h hlow hhigh hfull hsum => exact .again h hlow hhigh hfull hsum

theorem State.examine_pending (tick fuel : Nat) (bs : List Byte) (s : State) (p : List Instr) :
    State.examine tick fuel bs { s with pending := p } = { State.examine tick fuel bs s with pending := p } := by
  induction fuel generalizing bs s with
  | zero => rfl
  | succ fuel ih =>
    cases bs with
    | nil => rfl
    | cons x rest =>
      obtain ⟨t, back, hx⟩ := exists_byteExamined tick x s
      rw [hx.examine, (hx.pending p).examine, ih]

/-- RESET is released, and no inter-byte timer has run out at the present tick. -/
structure State.Listens (s : State) (tick : Nat) : Prop where
  released : s.inReset = false
  now : s.clock.now = tick
  timely : s.timerOverdue = false

theorem ByteExamined.listens (h : ByteExamined tick x s t back) (hs : s.Listens tick) : t.Listens tick := by
  obtain ⟨hreset, hnow, htime⟩ := hs
  cases h with
  | discarded h hx => exact ⟨hreset, hnow, htime⟩
  | opened h hx => exact ⟨hreset, hnow, by simp [State.timerOverdue, State.receiving, Link.timerDue, hnow]⟩
  | refused h hlen => exact ⟨hreset, hnow, State.timerOverdue_of_hunting rfl⟩
  | kept h hlow hhigh hshort => exact ⟨hreset, hnow, by simp [State.timerOverdue, State.receiving, Link.timerDue, hnow]⟩
  | offered h hlow hhigh hfull hsum =>
    exact ⟨by rw [State.offerFrame_inReset]; exact hreset, by rw [State.offerFrame_clock]; exact hnow,
      State.timerOverdue_of_hunting (by rw [State.offerFrame_receiver]; rfl)⟩
  | again h hlow hhigh hfull hsum => exact ⟨hreset, hnow, State.timerOverdue_of_hunting rfl⟩

/-- A byte received at the present tick is examined at it. -/
theorem State.Listens.exec_receiveByte (hs : s.Listens tick) (x : Byte) :
    exec (.receiveByte 0 x) s = .next (State.examine tick examineFuel [x] s) := by
  obtain ⟨hreset, rfl, htime⟩ := hs
  exact execReceiveByte_timely (e := 0) hreset htime

/-- The step that the run of the model repeats. -/
theorem run_succ {n : Nat} (h : step s = .next t) :
    Host.Core.run Sys2Proof.core (n + 1) s = Host.Core.run Sys2Proof.core n t := by
  have hcore : Sys2Proof.core.step s = .next t := h
  simp only [Host.Core.run, hcore]

/-- Bytes received one after another at one tick are examined in order. -/
theorem run_receiveBytes (hs : s.Listens tick) (bs : List Byte) (hfuel : s.link.receiver.cost bs.length ≤ examineFuel) :
    Host.Core.run Sys2Proof.core bs.length { s with pending := bs.map (Instr.receiveByte 0) ++ s.pending } =
      .next (State.examine tick examineFuel bs s) := by
  induction bs generalizing s with
  | nil => rw [State.examine_nil]; rfl
  | cons x bs ih =>
    have hone : s.link.receiver.cost ([x].length + bs.length) ≤ examineFuel := by
      rwa [List.length_singleton, Nat.add_comm]
    have hnext := State.examine_keeps (P := fun s => s.Listens tick) (fun x s t back hs hx => hx.listens hs)
      examineFuel [x] hs
    have hwait : State.Listens { s with pending := bs.map (Instr.receiveByte 0) ++ s.pending } tick :=
      ⟨hs.released, hs.now, hs.timely⟩
    have hkeep : (State.examine tick examineFuel [x] s).pending = s.pending := by
      show (State.examine tick examineFuel [x] { s with pending := s.pending }).pending = s.pending
      rw [State.examine_pending]
    have hstep : step { s with pending := .receiveByte 0 x :: (bs.map (Instr.receiveByte 0) ++ s.pending) } =
        .next { State.examine tick examineFuel [x] s with pending := bs.map (Instr.receiveByte 0) ++ s.pending } := by
      rw [← State.examine_pending]
      exact hwait.exec_receiveByte x
    rw [List.length_cons, List.map_cons, List.cons_append, run_succ hstep, ← hkeep,
      ih hnext ((State.cost_examine _ _ _ _).trans hone), ← State.examine_append hone]
    rfl

end

end Sys2Proof.Machine

namespace Sys2Proof.Machine

/-! ### RECEIVE_BYTE (R165, R167, R168, R170) -/

section
variable {s t : State} {e : Nat} {x : Byte} {back held : List Byte}

/-- A timely byte is examined at the tick of its arrival. -/
theorem exec_receiveByte_timely (hr : s.inReset = false) (htime : (s.elapse e).timerOverdue = false) :
    exec (.receiveByte e x) s = .next (State.examine (s.clock.now + e) examineFuel [x] (s.elapse e)) :=
  execReceiveByte_timely hr htime

/-- A timely byte that puts nothing back. -/
theorem ByteExamined.exec (h : ByteExamined (s.clock.now + e) x (s.elapse e) t []) (hr : s.inReset = false)
    (htime : (s.elapse e).timerOverdue = false) : exec (.receiveByte e x) s = .next t := by
  rw [exec_receiveByte_timely hr htime, examineFuel_succ, h.examine, List.nil_append, State.examine_nil]

theorem timely_of_inFrame {t0 : Nat} (h : s.link.receiver = .inFrame held t0) (ht : s.clock.now + e ≤ t0 + 135000) :
    (s.elapse e).timerOverdue = false := by
  rw [State.timerOverdue_of_inFrame (s := s.elapse e) h]
  exact decide_eq_false (Nat.not_lt.mpr ht)

theorem sumGood_iff : sumGood held = true ↔ (held.map BitVec.toNat).sum % 256 = 0 := decide_eq_true_iff

/-- The bytes after the marker spell the frame they were made of (R166). -/
theorem frameOf_spelled (len kind tag check : Byte) (body : List Byte) :
    frameOf (len :: kind :: tag :: (body ++ [check])) = { kind := kind, tag := tag, body := body } := by
  simp [frameOf]

/-- Settles O7: the ways in which a byte is examined, each with its condition. -/
theorem receiverHuntsAndCollects : Obligations.ReceiverHuntsAndCollects := by
  intro e x s
  refine ⟨fun hr => execReceiveByte_inReset hr, fun hhunt hx => ?_, fun hr hhunt => ?_, fun held t hr hin ht =>
    ⟨fun len rest hheld hlow hhigh hshort => ?_, fun hnil hlen => ?_,
      fun len kind tag body check hheld hhigh hlen hsum => ?_⟩⟩
  · cases hr : s.inReset with
    | true => exact execReceiveByte_inReset hr
    | false => exact (ByteExamined.discarded (s := s.elapse e) hhunt hx).exec hr (State.timerOverdue_of_hunting hhunt)
  · exact (ByteExamined.opened (s := s.elapse e) hhunt rfl).exec hr (State.timerOverdue_of_hunting hhunt)
  · have hlen : (held ++ [x]).headD 0 = len := by rw [hheld]; rfl
    subst hlen
    exact (ByteExamined.kept (s := s.elapse e) hin hlow hhigh hshort).exec hr (timely_of_inFrame hin ht)
  · subst hnil
    exact (ByteExamined.refused (s := s.elapse e) hin hlen).exec hr (timely_of_inFrame hin ht)
  · have hhead : (held ++ [x]).headD 0 = len := by rw [hheld]; rfl
    have hcount : (held ++ [x]).length = len.toNat + 2 := by rw [hheld]; simp; omega
    have hexec := (ByteExamined.offered (tick := s.clock.now + e) (s := s.elapse e) hin (by rw [hhead]; omega)
      (by rw [hhead]; exact hhigh) (by rw [hhead, hcount]) (sumGood_iff.mpr hsum)).exec hr (timely_of_inFrame hin ht)
    rw [hheld, frameOf_spelled] at hexec
    refine ⟨fun hroom => ?_, fun hfull => ?_⟩
    · rw [hexec, State.offerFrame_of_room (by exact hroom)]; rfl
    · rcases Nat.lt_or_ge (s.link.outbound.length + (if s.link.decoder.isSome then 1 else 0)) 8 with hslot | hnone
      · exact ⟨_, by rw [hexec, State.offerFrame_of_slot (by exact hfull) (by exact hslot)]; rfl, .inl ⟨hslot, rfl⟩⟩
      · exact ⟨_, by rw [hexec, State.offerFrame_of_full (by exact hfull) (by exact hnone)]; rfl, .inr ⟨hnone, rfl⟩⟩

end

/-! ### Frames refused or dropped (R168, R169) -/

section
variable {s : State} {held : List Byte} {t0 : Nat}

theorem State.dropFrame_of_hunting (h : s.link.receiver = .hunting) : s.dropFrame = s := by simp [State.dropFrame, h]

theorem State.dropFrame_of_inFrame (h : s.link.receiver = .inFrame held t0) :
    s.dropFrame = (s.receiving .hunting).raise .badFrame := by
  simp [State.dropFrame, h, State.receiving]

theorem Link.timerDue_of_hunting (h : s.link.receiver = .hunting) : s.link.timerDue = none := by
  simp [Link.timerDue, h]

theorem Link.timerDue_of_inFrame (h : s.link.receiver = .inFrame held t0) : s.link.timerDue = some (t0 + 135000) := by
  simp [Link.timerDue, h, Config.interByteTicks]

/-- Settles O8: a bad check puts the held bytes back, and a run over them examines them as the receiver does. -/
theorem refusedFramesAreExaminedAgainOrDropped : Obligations.RefusedFramesAreExaminedAgainOrDropped := by
  intro e s
  refine ⟨fun hhunt => ⟨?_, ?_⟩, fun hr => ?_, fun held t hr hin =>
    ⟨fun x len rest ht hheld hlow hhigh hcount hsum => ?_, ?_, fun ht => ?_, fun ht => ?_, fun x ht => ?_⟩⟩
  · show execByteError e s = _
    rw [execByteError, State.dropFrame_of_hunting (s := s.elapse e) hhunt]
    exact congrArg _ (ite_self _)
  · show execInterByteTimeout s = _
    rw [execInterByteTimeout, Link.timerDue_of_hunting hhunt]
  · show execByteError e s = _
    exact congrArg _ (if_pos hr)
  · have hhead : (held ++ [x]).headD 0 = len := by rw [hheld]; rfl
    have hbad : sumGood (held ++ [x]) = false := decide_eq_false hsum
    have hlisten : State.Listens (((s.elapse e).receiving .hunting).raise .badFrame) (s.clock.now + e) :=
      ⟨hr, rfl, State.timerOverdue_of_hunting rfl⟩
    have hcost : (held ++ [x]).length * (held ++ [x]).length ≤ 64008 := by
      rw [hcount]
      exact (Nat.mul_le_mul (show len.toNat + 2 ≤ 252 by omega) (show len.toNat + 2 ≤ 252 by omega)).trans (by decide)
    have hrun := run_receiveBytes hlisten (held ++ [x]) (hcost.trans (by decide))
    rw [exec_receiveByte_timely hr (timely_of_inFrame hin ht), examineFuel_succ,
      (ByteExamined.again (s := s.elapse e) hin (by rw [hhead]; exact hlow) (by rw [hhead]; exact hhigh)
        (by rw [hhead, hcount]) hbad).examine, List.append_nil,
      State.examine_fuel (g := examineFuel) hcost (hcost.trans (by decide))]
    exact hrun.symm
  · show execByteError e s = _
    rw [execByteError, State.dropFrame_of_inFrame (s := s.elapse e) hin]
    exact congrArg _ (if_neg (by rw [State.elapse]; simp [hr]))
  · show execInterByteTimeout s = _
    rw [execInterByteTimeout, Link.timerDue_of_inFrame hin]
    dsimp only
    rw [Nat.max_eq_right ht, State.dropFrame_of_inFrame (by exact hin), State.elapse, Nat.add_sub_of_le ht]
    rfl
  · show execInterByteTimeout s = _
    rw [execInterByteTimeout, Link.timerDue_of_inFrame hin]
    dsimp only
    rw [Nat.max_eq_left (Nat.le_of_lt ht), State.dropFrame_of_inFrame (by exact hin)]
    rfl
  · have hlate : (s.elapse e).timerOverdue = true := by
      rw [State.timerOverdue_of_inFrame (s := s.elapse e) hin]
      exact decide_eq_true ht
    refine Eq.trans ?_ (exec_receiveByte_timely (s := ((s.elapse e).receiving .hunting).raise .badFrame) (e := 0) hr
      (State.timerOverdue_of_hunting rfl)).symm
    show execReceiveByte e x s = _
    simp only [execReceiveByte, hlate, if_true, State.dropFrame_of_inFrame (s := s.elapse e) hin]
    exact congrArg _ (if_neg (by rw [State.elapse]; simp [hr]))

end

/-! ### The wire bytes of a frame (R166) -/

section
variable {s : State} {tick fuel : Nat} {held bs rest : List Byte}

theorem headD_append_cons (held : List Byte) (x : Byte) (bs : List Byte) :
    (held ++ x :: bs).headD 0 = (held ++ [x]).headD 0 := by
  cases held <;> rfl

/-- Bytes that do not complete the frame join the buffer. -/
theorem State.examine_collects (h : s.link.receiver = .inFrame held tick) (hlow : 2 ≤ ((held ++ bs).headD 0).toNat)
    (hhigh : ((held ++ bs).headD 0).toNat ≤ 250) (hshort : (held ++ bs).length < ((held ++ bs).headD 0).toNat + 2) :
    State.examine tick (fuel + bs.length) (bs ++ rest) s =
      State.examine tick fuel rest (s.receiving (.inFrame (held ++ bs) tick)) := by
  induction bs generalizing held s with
  | nil => rw [List.append_nil, ← h]; rfl
  | cons x bs ih =>
    have hone : held ++ x :: bs = (held ++ [x]) ++ bs := by simp
    rw [headD_append_cons] at hlow hhigh hshort
    have hlen : (held ++ [x]).length ≤ (held ++ x :: bs).length := by simp
    rw [List.cons_append, List.length_cons, ← Nat.add_assoc,
      (ByteExamined.kept h hlow hhigh (Nat.lt_of_le_of_lt hlen hshort)).examine, List.nil_append,
      ih rfl (by rwa [← hone, headD_append_cons]) (by rwa [← hone, headD_append_cons])
        (by rwa [← hone, headD_append_cons]), hone]
    rfl

/-- The bytes of a frame after the marker: their sum is a multiple of 256 (R166). -/
theorem sumGood_wire (f : Frame) :
    sumGood (BitVec.ofNat 8 (f.body.length + 2) :: f.kind :: f.tag :: (f.body ++ [checkByte f])) = true := by
  refine sumGood_iff.mpr ?_
  simp only [List.map_cons, List.map_append, List.map_nil, List.sum_cons, List.sum_append, List.sum_nil, checkByte,
    BitVec.toNat_ofNat]
  omega

/-- A whole frame, examined while hunting, is offered to the inbound queue. -/
theorem State.examine_wire {f : Frame} (hlen : f.body.length ≤ 248) (h : s.link.receiver = .hunting) :
    State.examine tick examineFuel f.wire s = s.offerFrame f := by
  have hhead : (BitVec.ofNat 8 (f.body.length + 2)).toNat = f.body.length + 2 := by
    rw [BitVec.toNat_ofNat]; omega
  obtain ⟨g, hg⟩ : ∃ g, examineFuel = g + 1 + (f.body.length + 3) + 1 :=
    ⟨64007 - (f.body.length + 3), by rw [examineFuel_succ]; omega⟩
  have hwire : f.wire = Config.marker ::
      ((BitVec.ofNat 8 (f.body.length + 2) :: f.kind :: f.tag :: f.body) ++ [checkByte f]) := rfl
  have hspelled : frameOf ((BitVec.ofNat 8 (f.body.length + 2) :: f.kind :: f.tag :: f.body) ++ [checkByte f]) = f :=
    frameOf_spelled _ f.kind f.tag _ f.body
  have hhunt : (s.receiving (.inFrame [] tick)).receiving
      (.inFrame (BitVec.ofNat 8 (f.body.length + 2) :: f.kind :: f.tag :: f.body) tick) = s.receiving
      (.inFrame (BitVec.ofNat 8 (f.body.length + 2) :: f.kind :: f.tag :: f.body) tick) := rfl
  have hback : (s.receiving (.inFrame (BitVec.ofNat 8 (f.body.length + 2) :: f.kind :: f.tag :: f.body) tick)).receiving
      .hunting = s := by
    show s.withLink { s.link with receiver := .hunting } = s
    rw [← h]
    rfl
  rw [hwire, hg, (ByteExamined.opened h rfl).examine, List.nil_append,
    show f.body.length + 3 = (BitVec.ofNat 8 (f.body.length + 2) :: f.kind :: f.tag :: f.body).length by simp,
    State.examine_collects (s := s.receiving _) rfl (by simp [hhead]) (by simp [hhead]; omega) (by simp [hhead]),
    List.nil_append, hhunt,
    (ByteExamined.offered (s := s.receiving _) rfl (by simp [hhead]) (by simp [hhead]; omega) (by simp [hhead])
      (by exact sumGood_wire f)).examine, List.nil_append, State.examine_nil, hback, hspelled]

/-- Settles O6: the run of the bytes is one examination of them, which offers the frame. -/
theorem wireBytesReachTheInboundQueue : Obligations.WireBytesReachTheInboundQueue := by
  intro f hlen
  refine ⟨⟨checkByte f, rfl, sumGood_iff.mp (sumGood_wire f)⟩, fun s hr hhunt hroom => ?_⟩
  have hlisten : s.Listens s.clock.now := ⟨hr, rfl, State.timerOverdue_of_hunting hhunt⟩
  have hcount : f.wire.length ≤ 253 := by simp [Frame.wire]; omega
  rw [run_receiveBytes hlisten f.wire (by rw [hhunt]; exact Nat.mul_le_mul hcount hcount), State.examine_wire hlen hhunt,
    State.offerFrame_of_room hroom]

end

end Sys2Proof.Machine

namespace Sys2Proof.Machine

/-! ### A part held in RESET (R129, R138, R165, R178) -/

/-- What the part holds while RESET is asserted: nothing in it that any command but the inputs could act on. -/
structure State.Dead (s : State) : Prop where
  asserted : s.inReset = true
  receiver : s.link.receiver = .hunting
  decoder : s.link.decoder = none
  inbound : s.link.inbound = []
  sending : s.link.sending = false
  lock : s.clock.lock = .free
  gpi : ∀ n : GpiId, s.gpi[n] = Gpi.powerOn s.gpi[n].level
  lanes : ∀ i, (s.lane i).state = .off
  symbols : s.symbols = []
  inFlight : s.formatter.inFlight = none
  queue : s.formatter.queue = []
  compositor : s.compositor.state = .idle

section
variable {s : State}

theorem State.HeldInReset.dead (h : s.HeldInReset) (hr : s.inReset = true) : s.Dead := by
  have heq := h hr
  refine ⟨hr, ?_, ?_, ?_, ?_, ?_, fun n => ?_, fun i => ?_, ?_, ?_, ?_, ?_⟩
  case refine_6 =>
    have hgpi : s.gpi = (s.gpi.map Gpi.level).map Gpi.powerOn := congrArg State.gpi heq
    calc s.gpi[n] = ((s.gpi.map Gpi.level).map Gpi.powerOn)[n] := congrArg (fun v : Vector Gpi 4 => v[n]) hgpi
      _ = Gpi.powerOn s.gpi[n].level := by simp
  all_goals rw [heq]
  case refine_7 => simp [State.lane, State.powerOn, Lane.powerOn]
  all_goals rfl

namespace State.Dead
variable {k tag : Byte} {b : List Byte}

theorem inHand (d : s.Dead) (f : Frame) : s.inHand f = none := by
  simp [State.inHand, d.decoder, d.asserted]

theorem serve (d : s.Dead) (rule : List Byte → State → State × Reply) : serve k tag b rule s = s :=
  serve_none (d.inHand _)

theorem elapse (d : s.Dead) (e : Nat) : (s.elapse e).Dead := { d with }

theorem take (d : s.Dead) : s.link.take = s.link := by simp [Link.take, d.decoder, d.inbound]

theorem sent (d : s.Dead) : s.link.sent = s.link := by simp [Link.sent, d.sending]

theorem startDue (d : s.Dead) (i : LaneId) : (s.lane i).startDue = false := by simp [Lane.startDue, d.lanes]

theorem checkSymbol (d : s.Dead) (slot : Nat) : s.checkSymbol slot = s := by
  simp [State.checkSymbol, State.symbol?, d.symbols, tableFind]

theorem due (d : s.Dead) (n : GpiId) : s.gpi[n].due = none := by rw [d.gpi n]; rfl

end State.Dead

/-- While RESET is asserted only time passes (R165). -/
theorem exec_of_dead (d : s.Dead) {c : Instr} (hedge : ∀ edge, c ≠ .powerOnReset edge)
    (hlevel : ∀ e n, c ≠ .gpiLevelChange e n) : exec c s = .next (s.elapse (passedBefore c)) := by
  cases hreq : requestFrame c with
  | some frame =>
    obtain ⟨k, tag, b⟩ := frame
    by_cases hc : c = .unknownKind k tag b
    · subst hc
      rw [execUnknownKind_eq, d.inHand]
      exact congrArg _ (ite_self _)
    · rw [exec_request hreq hc, (d.elapse _).serve]
  | none =>
    cases c with
    | decoderTake => exact congrArg (fun l => Host.Outcome.next { s with link := l }) d.take
    | replySent => exact congrArg (fun l => Host.Outcome.next { s with link := l }) d.sent
    | receiveByte e x => exact execReceiveByte_inReset d.asserted
    | byteError e => exact congrArg _ (if_pos d.asserted)
    | interByteTimeout =>
      show execInterByteTimeout s = _
      rw [execInterByteTimeout, Link.timerDue_of_hunting d.receiver]
      rfl
    | powerOnReset edge => exact absurd rfl (hedge edge)
    | framePeriodExpiry order => exact congrArg _ (periodExpiry_of_inReset d.asserted)
    | windowExpiry order => exact congrArg _ (windowEnd_of_unlocked (by rw [d.lock]; decide))
    | referencePulse e order => exact congrArg _ (pulseAt_of_free (s := s.elapse e) d.lock)
    | armedStart i => exact congrArg _ (if_neg (by rw [d.startDue]; decide))
    | holdDwellExpiry i => exact congrArg _ (if_neg (by rw [d.lanes]; simp))
    | symbolStale slot => exact congrArg _ (d.checkSymbol slot)
    | compositionComplete =>
      show execCompositionComplete s = _
      rw [execCompositionComplete, d.compositor]
      rfl
    | refreshTake => exact congrArg _ (State.takeRefresh_of_empty d.queue)
    | refreshComplete =>
      show execRefreshComplete s = _
      rw [execRefreshComplete, d.inFlight]
      rfl
    | gpiLevelChange e n => exact absurd rfl (hlevel e n)
    | gpiDebounceExpiry n late =>
      show execGpiDebounceExpiry n late s = _
      rw [execGpiDebounceExpiry, d.due]
      rfl
    | _ => cases hreq

/-- While RESET is asserted the counted level of an input follows its level (R138). -/
theorem exec_gpiLevelChange_of_inReset (hr : s.inReset = true) (e : Nat) (n : GpiId) :
    exec (.gpiLevelChange e n) s = .next ((s.elapse e).setGpi n (Gpi.powerOn !s.gpi[n].level)) :=
  congrArg Host.Outcome.next (if_pos hr)

theorem EventUnit.powerOn_level (g : GroupId) : EventUnit.powerOn.groups[g].level =
    if g.val ≤ 1 then 3 else if g.val ≤ 7 then 2 else if g.val = 8 then 1 else 0 := by
  have hlevels : ∀ g : GroupId, (#v[3, 3, 2, 2, 2, 2, 2, 2, 1, 0] : Vector (Fin 4) 10)[g] =
      if g.val ≤ 1 then 3 else if g.val ≤ 7 then 2 else if g.val = 8 then 1 else 0 := by decide
  simp only [EventUnit.powerOn, Fin.getElem_fin, Vector.getElem_map]
  exact hlevels g

/-- Settles O11: a part in RESET holds nothing to act on, and the change of RESET writes every block's power-on values. -/
theorem powerOnResetGivesThePowerOnValues : Obligations.PowerOnResetGivesThePowerOnValues := by
  refine ⟨fun s h hr =>
      ⟨exec_gpiLevelChange_of_inReset hr, fun c hedge hlevel => exec_of_dead (h.dead hr) hedge hlevel⟩,
    fun e asserted s => ⟨_, rfl, rfl, rfl, rfl, fun n => ?_, fun i => ?_, rfl, rfl, fun k => ?_, rfl, rfl, fun k => ?_,
      rfl, fun k => ?_, rfl, fun g => ?_, rfl, rfl⟩⟩
  · simp [State.powerOn, Gpi.powerOn]
  · simp only [State.lane, State.powerOn, Fin.getElem_fin, Vector.getElem_replicate]; rfl
  · simp [State.powerOn]
  · simp only [State.powerOn, Fin.getElem_fin, Vector.getElem_replicate]; rfl
  · simp only [State.powerOn, Fin.getElem_fin, Vector.getElem_replicate]; rfl
  · obtain ⟨henable, hpending⟩ := EventUnit.powerOn_group g
    exact ⟨hpending, henable, EventUnit.powerOn_level g⟩

end

end Sys2Proof.Machine

namespace Sys2Proof.Machine

/-! ### Commands that keep the link and every block sound -/

/-- t has a sound link, sound stores, a sound refresh queue and a sound timing block where s has, and RESET as in s. -/
structure KeepsSound (s t : State) : Prop where
  inReset : t.inReset = s.inReset
  link : s.link.Sound → t.link.Sound
  stores : KeepsStores s t
  clock : s.clock.Sound → t.clock.Sound

section
variable {s t u : State} {k k' : Link} {f : Frame}

theorem Link.Sound.spares (h : k.Sound) (hk : k.Spares k') : k'.Sound := by
  obtain ⟨q, rfl, hq⟩ := hk
  exact ⟨hq.trans h.inbound, h.slots, h.sending, h.buffer⟩

theorem KeepsBlocks.sound (h : KeepsBlocks s t) : KeepsSound s t :=
  ⟨h.beside.inReset, fun hs => hs.spares h.beside.link, h.beside.stores, h.clock⟩

theorem KeepsSound.refl (s : State) : KeepsSound s s := (KeepsBlocks.refl s).sound

theorem KeepsSound.trans (a : KeepsSound s t) (b : KeepsSound t u) : KeepsSound s u :=
  ⟨b.inReset.trans a.inReset, b.link ∘ a.link, a.stores.trans b.stores, b.clock ∘ a.clock⟩

theorem KeepsSound.ite {p : Prop} [Decidable p] (ht : KeepsSound s t) (hu : KeepsSound s u) :
    KeepsSound s (if p then t else u) := by
  split <;> assumption

theorem KeepsSound.raise (s : State) (f : Factor) : KeepsSound s (s.raise f) :=
  (KeepsBlocks.of_blocks rfl : KeepsBlocks s (s.raise f)).sound

theorem KeepsBlocks.later (s : State) {n : Nat} (h : s.clock.now ≤ n) :
    KeepsBlocks s { s with clock := { s.clock with now := n } } :=
  ⟨.setClock s _, fun hs => hs.later h⟩

theorem KeepsBlocks.elapse (s : State) (e : Nat) : KeepsBlocks s (s.elapse e) := .later s (Nat.le_add_right _ _)

/-- Only the link changed. -/
theorem KeepsSound.withLink (h : s.link.Sound → k.Sound) : KeepsSound s (s.withLink k) :=
  ⟨rfl, h, (KeepsStores.refl s).trans ⟨id, id, id, .of_slots rfl, id⟩, id⟩

/-! The queues of the link (R170 to R172) -/

theorem Link.Sound.hold (h : k.Sound) (hslot : 0 < k.freeSlots) : ({ k with decoder := some f } : Link).Sound where
  inbound := h.inbound
  slots := by
    have := Link.freeSlots_pos.mp hslot
    show k.outbound.length + 1 ≤ 8
    omega
  sending := h.sending
  buffer := h.buffer

theorem Link.Sound.take (h : k.Sound) : k.take.Sound := by
  unfold Link.take
  split
  · rename_i f rest hfree hin
    split
    · rename_i hslot
      exact (h.hold (f := f) hslot).spares ⟨rest, rfl, by rw [show k.inbound = f :: rest from hin]; simp⟩
    · exact h
  · exact h

theorem Link.Sound.sent (h : k.Sound) : k.sent.Sound := by
  obtain ⟨hin, hslots, hsending, hbuffer⟩ := h
  unfold Link.sent
  split
  · split
    · rename_i hout
      exact ⟨hin, hslots, by simp [hout], hbuffer⟩
    · rename_i f rest hout
      rw [hout] at hslots
      exact ⟨hin, (Nat.add_le_add_right (Nat.le_succ _) _).trans hslots, rfl, hbuffer⟩
  · exact ⟨hin, hslots, hsending, hbuffer⟩

theorem Link.Sound.place (h : k.Sound) (f : Frame) (hslot : 0 < k.freeSlots) : (k.place f).Sound where
  inbound := h.inbound
  slots := by
    have := Link.freeSlots_pos.mp hslot
    show (k.outbound ++ [f]).length + (if k.decoder.isSome then 1 else 0) ≤ 8
    rw [List.length_append, List.length_singleton]
    omega
  sending := by simp [Link.place]
  buffer := h.buffer

/-- A Decoder that answers leaves its reserved slot to the reply. -/
theorem Link.Sound.reply (h : k.Sound) (hd : k.decoder.isSome) (f : Frame) :
    (({ k with decoder := none } : Link).place f).Sound := by
  have hslots := h.slots
  simp only [hd, if_true] at hslots
  have hfree : k.outbound.length < 8 := hslots
  exact Link.Sound.place (k := { k with decoder := none }) ⟨h.inbound, hfree.le, h.sending, h.buffer⟩ f
    (Link.freeSlots_pos.mpr hfree)

theorem Link.Sound.receiving (h : k.Sound) {r : Receiver}
    (hr : ∀ held t, r = .inFrame held t → held = [] ∨
      ∃ len rest, held = len :: rest ∧ 2 ≤ len.toNat ∧ len.toNat ≤ 250 ∧ held.length < len.toNat + 2) :
    ({ k with receiver := r } : Link).Sound :=
  ⟨h.inbound, h.slots, h.sending, hr⟩

/-! The receiver (R167 to R169) -/

theorem KeepsSound.hunts (s : State) : KeepsSound s (s.receiving .hunting) :=
  .withLink fun h => h.receiving fun _ _ h => by cases h

theorem KeepsSound.offerFrame (s : State) (f : Frame) : KeepsSound s (s.offerFrame f) :=
  s.offerFrame_elim (P := KeepsSound s) f
    (fun hroom => .withLink fun h => ⟨by rw [List.length_append]; exact hroom, h.slots, h.sending, h.buffer⟩)
    (fun hslot => (KeepsSound.withLink fun h => h.place _ (Link.freeSlots_pos.mpr hslot)).trans (.raise _ _))
    (.raise s _)

theorem ByteExamined.keepsSound {tick : Nat} {x : Byte} {back : List Byte} (h : ByteExamined tick x s t back) :
    KeepsSound s t := by
  cases h with
  | discarded => exact .refl s
  | opened => exact .withLink fun h => h.receiving fun _ _ hr => by cases hr; exact .inl rfl
  | refused => exact (KeepsSound.hunts s).trans (.raise _ _)
  | @kept held t0 _ hlow hhigh hshort =>
    refine .withLink fun h => h.receiving fun held' t' hr => ?_
    cases hr
    obtain ⟨len, rest, heq⟩ : ∃ len rest, held ++ [x] = len :: rest := by cases held <;> exact ⟨_, _, rfl⟩
    rw [heq] at hlow hhigh hshort ⊢
    exact .inr ⟨len, rest, rfl, hlow, hhigh, hshort⟩
  | offered => exact (KeepsSound.hunts s).trans (.offerFrame _ _)
  | again => exact (KeepsSound.hunts s).trans (.raise _ _)

theorem KeepsSound.examine (tick fuel : Nat) (bs : List Byte) (s : State) : KeepsSound s (State.examine tick fuel bs s) :=
  State.examine_keeps (P := KeepsSound s) (fun _ _ _ _ h hx => h.trans hx.keepsSound) fuel bs (.refl s)

theorem KeepsSound.dropFrame (s : State) : KeepsSound s s.dropFrame := by
  unfold State.dropFrame
  split
  · exact .refl s
  · exact (KeepsSound.hunts s).trans (.raise _ _)

/-! Requests (R172) -/

/-- A request in hand is the one the Decoder holds, or takes a free slot. -/
theorem KeepsSound.inHand (h : s.inHand f = some t) : KeepsSound s t ∧ t.link.decoder.isSome := by
  unfold State.inHand at h
  split at h
  · rename_i g hg
    split at h <;> cases h
    exact ⟨.refl s, by rw [hg]; rfl⟩
  · split at h <;> cases h
    rename_i hrest
    obtain ⟨-, -, -, hslot⟩ := hrest
    exact ⟨.withLink fun h => h.hold hslot, rfl⟩

theorem KeepsSound.reply (hd : s.link.decoder.isSome) (f : Frame) (r : Reply) : KeepsSound s (s.reply f r) :=
  .withLink fun h => h.reply hd _

theorem Link.Spares.decoder (h : k.Spares k') : k'.decoder = k.decoder := by
  obtain ⟨q, rfl, -⟩ := h; rfl

theorem KeepsSound.serve {rule : List Byte → State → State × Reply} (hr : RuleKeepsBlocks rule) (kind tag : Byte)
    (b : List Byte) (s : State) : KeepsSound s (serve kind tag b rule s) := by
  unfold Machine.serve
  split
  · exact .refl s
  · rename_i u hu
    obtain ⟨hhand, hheld⟩ := KeepsSound.inHand hu
    have hrule := hr b u
    exact hhand.trans (.ite (hrule.sound.trans (.reply (by rw [hrule.beside.link.decoder]; exact hheld) _ _))
      (.reply hheld _ _))

/-! The other commands -/

theorem KeepsBlocks.concludeRefresh (s : State) (f : Formatting) : KeepsBlocks s (s.concludeRefresh f) := by
  unfold State.concludeRefresh
  refine .ite (.refl s) ?_
  split
  · exact .refl s
  · split
    · exact .refl s
    · exact .ite (.of_blocks rfl) (.of_blocks rfl)

theorem KeepsBlocks.takeRefresh (s : State) : KeepsBlocks s s.takeRefresh := .of_work (.takeRefresh s) (.takeRefresh s)

theorem KeepsBlocks.freesFormatter (s : State) :
    KeepsBlocks s { s with formatter := { s.formatter with inFlight := none } } := .of_blocks rfl

theorem KeepsBlocks.endHold (s : State) (i : LaneId) : KeepsBlocks s (s.endHold i) := .of_blocks rfl

theorem KeepsBlocks.gpiEdge (s : State) (late : LaneSet) (n : GpiId) : KeepsBlocks s (s.gpiEdge late n) :=
  (KeepsBlocks.of_blocks rfl : KeepsBlocks s (s.raise (.gpiEdge n))).trans
    (.of_work (.foldl (.meetCondition late) _ _) (.foldl (.meetCondition late) _ _))

theorem KeepsBlocks.setGpi (s : State) (n : GpiId) (g : Gpi) : KeepsBlocks s (s.setGpi n g) := .of_blocks rfl

theorem KeepsBlocks.countedChange (s : State) (late : LaneSet) (n : GpiId) : KeepsBlocks s (s.countedChange late n) :=
  .ite ((KeepsBlocks.setGpi s n _).trans (.gpiEdge _ late n)) (.setGpi s n _)

theorem KeepsBlocks.levelChange (s : State) (n : GpiId) : KeepsBlocks s (s.levelChange n) :=
  .ite (.setGpi s n _) ((KeepsBlocks.ite (.countedChange s 0 n) (.refl s)).trans (.setGpi _ n _))

/-- Every command but a change of RESET keeps the link, the stores and the timing blocks sound. -/
theorem exec_keepsSound {c : Instr} (hedge : ∀ edge, c ≠ .powerOnReset edge) (he : exec c s = .next t) :
    KeepsSound s t := by
  cases hreq : requestFrame c with
  | some frame =>
    obtain ⟨k, tag, b⟩ := frame
    by_cases hc : c = .unknownKind k tag b
    · subst hc
      cases he
      split
      · rename_i u _ hu
        obtain ⟨hhand, hheld⟩ := KeepsSound.inHand hu
        exact hhand.trans (.reply hheld _ _)
      · exact .refl s
    · rw [exec_request hreq hc] at he
      cases he
      exact (KeepsBlocks.elapse s _).sound.trans (.serve (requestRule_keepsBlocks c) k tag b _)
  | none =>
    cases c with
    | decoderTake => cases he; exact .withLink fun h => h.take
    | replySent => cases he; exact .withLink fun h => h.sent
    | receiveByte e x =>
      cases he
      refine (KeepsBlocks.elapse s e).sound.trans (.ite (.refl _) ?_)
      exact (KeepsSound.ite (.dropFrame _) (.refl _)).trans (.examine _ _ _ _)
    | byteError e => cases he; exact (KeepsBlocks.elapse s e).sound.trans (.ite (.refl _) (.dropFrame _))
    | interByteTimeout =>
      cases he
      split
      · exact .refl s
      · exact (KeepsBlocks.later s (Nat.le_max_left _ _)).sound.trans (.dropFrame _)
    | powerOnReset edge => exact absurd rfl (hedge edge)
    | framePeriodExpiry order =>
      cases he
      exact (⟨.ite (.setClock s s.clock) (.frameStart s order _), fun h => h.periodExpiry⟩ : KeepsBlocks s _).sound
    | windowExpiry order => cases he; exact (⟨.windowEnd s order, fun h => h.windowEnd⟩ : KeepsBlocks s _).sound
    | referencePulse e order =>
      cases he
      exact ((KeepsBlocks.elapse s e).trans ⟨.pulseAt _ order, fun h => h.pulseAt⟩).sound
    | armedStart i => cases he; exact (KeepsBlocks.ite (.startArmed s i) (.refl s)).sound
    | holdDwellExpiry i => cases he; exact (KeepsBlocks.ite (.endHold s i) (.refl s)).sound
    | symbolStale slot => cases he; exact (KeepsBlocks.of_work (.checkSymbol s slot) (.checkSymbol s slot)).sound
    | compositionComplete =>
      cases he
      split
      · rename_i sn hstate hsn
        have hdone (h : s.compositor.Sound) :
            ({ s.compositor with state := .idle, inFlight := none, output := s.draw sn } : Compositor).Sound :=
          ⟨by simp, h.palette⟩
        exact (KeepsBlocks.of_compositor hdone).sound
      · exact .refl s
    | refreshTake => cases he; exact (KeepsBlocks.takeRefresh s).sound
    | refreshComplete =>
      replace he : execRefreshComplete s = .next t := he
      unfold execRefreshComplete at he
      split at he <;> cases he
      · exact .refl s
      · exact ((KeepsBlocks.concludeRefresh s _).trans ((KeepsBlocks.freesFormatter _).trans (.takeRefresh _))).sound
    | gpiLevelChange e n => cases he; exact ((KeepsBlocks.elapse s e).trans (.levelChange _ n)).sound
    | gpiDebounceExpiry n late =>
      cases he
      split
      · exact .refl s
      · exact ((KeepsBlocks.later s (Nat.le_max_left _ _)).trans (.countedChange _ late n)).sound
    | _ => cases hreq

/-! ### Every step -/

/-- A command is a change of RESET or not. -/
theorem powerOnReset_or (c : Instr) : (∃ edge, c = .powerOnReset edge) ∨ ∀ edge, c ≠ .powerOnReset edge := by
  by_cases h : ∃ edge, c = .powerOnReset edge
  · exact .inl h
  · exact .inr fun edge hc => h ⟨edge, hc⟩

/-- Settles O9: a step idles, resets the link, or keeps it sound. -/
theorem linkStaysSound : Obligations.LinkStaysSound := by
  intro s t h hstep
  unfold step at hstep
  split at hstep
  · cases hstep; exact h
  · rename_i c rest hpending
    obtain ⟨edge, rfl⟩ | hedge := powerOnReset_or c
    · cases hstep; exact Link.powerOn_sound
    · exact (exec_keepsSound hedge hstep).link h

/-! RESET -/

/-- The part right after a change of RESET is held as it asserts. -/
theorem State.powerOn_held (asserted : Bool) (tick : Nat) (levels : Vector Bool 4) (waiting : List Instr) :
    (State.powerOn asserted tick levels waiting).HeldInReset := by
  intro hr
  cases hr
  have hlevels : (levels.map Gpi.powerOn).map Gpi.level = levels := by
    rw [Vector.map_map]
    exact Vector.map_id levels
  show State.powerOn true tick levels waiting =
    { State.powerOn true tick ((levels.map Gpi.powerOn).map Gpi.level) waiting with clock := FrameClock.powerOn tick }
  rw [hlevels]
  rfl

theorem State.HeldInReset.elapse (h : s.HeldInReset) (e : Nat) : (s.elapse e).HeldInReset := by
  intro hr
  exact congrArg (fun u : State => u.elapse e) (h hr)

/-- An input of a part held in RESET follows its level. -/
theorem State.HeldInReset.setGpi (h : s.HeldInReset) (n : GpiId) (level : Bool) :
    (s.setGpi n (Gpi.powerOn level)).HeldInReset := by
  intro hr
  have hinputs (v : Vector Gpi 4) (hv : (v.map Gpi.level).map Gpi.powerOn = v) : ({ s with gpi := v } : State) =
      { State.powerOn true s.clock.origin (v.map Gpi.level) s.pending with
        clock := { FrameClock.powerOn s.clock.origin with now := s.clock.now } } := by
    refine (congrArg (fun u : State => { u with gpi := v }) (h hr)).trans ?_
    simp only [State.powerOn, hv]
  refine hinputs (s.gpi.set n (Gpi.powerOn level)) (Vector.ext fun i hi => ?_)
  have hkept : Gpi.powerOn s.gpi[i].level = s.gpi[i] := ((h.dead hr).gpi ⟨i, hi⟩).symm
  rw [Vector.getElem_map, Vector.getElem_map, Vector.getElem_set]
  split
  · rfl
  · exact hkept

/-- Every command keeps a part held in RESET at its power-on values. -/
theorem exec_keeps_heldInReset {c : Instr} (h : s.HeldInReset) (he : exec c s = .next t) : t.HeldInReset := by
  obtain ⟨edge, rfl⟩ | hedge := powerOnReset_or c
  · cases he; exact State.powerOn_held _ _ _ _
  · intro hr
    have hs : s.inReset = true := (exec_keepsSound hedge he).inReset ▸ hr
    by_cases hlevel : ∃ e n, c = .gpiLevelChange e n
    · obtain ⟨e, n, rfl⟩ := hlevel
      rw [exec_gpiLevelChange_of_inReset hs] at he
      cases he
      exact (h.elapse e).setGpi n _ hr
    · rw [exec_of_dead (h.dead hs) hedge fun e n hc => hlevel ⟨e, n, hc⟩] at he
      cases he
      exact h.elapse _ hr

/-- Settles O52: a step idles, writes the power-on values, or keeps every block sound. -/
theorem storesQueueAndClockStaySound : Obligations.StoresQueueAndClockStaySound := by
  intro s t hstep
  unfold step at hstep
  split at hstep
  · cases hstep; exact ⟨id, id, id, id, id, id, id, id⟩
  · rename_i c rest hpending
    have hheld (h : s.HeldInReset) : t.HeldInReset :=
      exec_keeps_heldInReset (s := { s with pending := rest })
        (fun hr => congrArg (fun u : State => { u with pending := rest }) (h hr)) hstep
    obtain ⟨edge, rfl⟩ | hedge := powerOnReset_or c
    · cases hstep
      exact ⟨fun _ => .nil, fun _ => .powerOn, fun _ => rfl, fun _ => ⟨rfl, fun _ h => by cases h⟩,
        fun _ => ⟨Nat.zero_le _, .nil⟩, fun _ => FrameClock.powerOn_sound _, fun _ => Compositor.powerOn_sound, hheld⟩
    · obtain ⟨-, -, hstores, hclock⟩ := exec_keepsSound hedge hstep
      exact ⟨hstores.texts, hstores.faces, hstores.symbols, hstores.slots.generations, hstores.slots.queue, hclock,
        hstores.compositor, hheld⟩

end

end Sys2Proof.Machine

namespace Sys2Proof.Machine

/-! ### SYM_SCAN (R88) -/

section
variable {α : Type} {t : Table α} {n : Nat} {last p : Nat × α}

/-- The first records of a rising table are those below the number after the last of them. -/
theorem mem_take_iff_le (ht : (t.map Prod.fst).Pairwise (· < ·)) (hlast : (t.take n).getLast? = some last) :
    p ∈ t.take n ↔ p ∈ t ∧ p.1 < last.1 + 1 := by
  rw [List.pairwise_map, ← List.take_append_drop n t, List.pairwise_append] at ht
  obtain ⟨hfirst, -, hacross⟩ := ht
  refine ⟨fun hp => ⟨List.mem_of_mem_take hp, ?_⟩, fun ⟨hp, hle⟩ => ?_⟩
  · obtain ⟨before, heq⟩ := List.getLast?_eq_some_iff.mp hlast
    rw [heq, List.pairwise_append] at hfirst
    obtain ⟨-, -, hbefore⟩ := hfirst
    rw [heq, List.mem_append, List.mem_singleton] at hp
    obtain hp | rfl := hp
    · exact Nat.lt_succ_of_lt (hbefore p hp last (List.mem_singleton_self _))
    · exact Nat.lt_succ_self _
  · rw [← List.take_append_drop n t, List.mem_append] at hp
    refine hp.resolve_right fun hp => ?_
    have := hacross last (List.mem_of_getLast? hlast) p hp
    omega

end

section
variable {s : State} {start filter : Nat} {r : SymbolRec}

theorem scanPasses_iff (h : filter ≤ 2) :
    scanPasses filter r = true ↔ (filter = 1 → r.stale = true) ∧ (filter = 2 → r.halted = true) := by
  obtain rfl | rfl | rfl : filter = 0 ∨ filter = 1 ∨ filter = 2 := by omega
  · simp [scanPasses]
  · simp [scanPasses]
  · simp [scanPasses]

/-- The symbols that a scan may collect: those from the start slot on that pass its filter. -/
def scanned (t : Table SymbolRec) (start filter : Nat) : Table SymbolRec :=
  t.filter fun (k, r) => decide (k ≥ start) && scanPasses filter r

theorem scanFrom_eq (t : Table SymbolRec) (start filter : Nat) :
    scanFrom t start filter = ((scanned t start filter).take 20).map fun (k, r) => (k, r.code) := rfl

theorem mem_scanned (ht : tableRising s.symbols = true) (hf : filter ≤ 2) {k : Nat} :
    (k, r) ∈ scanned s.symbols start filter ↔ start ≤ k ∧ s.symbol? k = some r ∧
      (filter = 1 → r.stale = true) ∧ (filter = 2 → r.halted = true) := by
  simp only [scanned, List.mem_filter, Bool.and_eq_true, decide_eq_true_eq, scanPasses_iff hf, State.symbol?,
    tableFind_iff_mem ht]
  tauto

theorem scanned_rising {t : Table SymbolRec} (ht : tableRising t = true) :
    ((scanned t start filter).map Prod.fst).Pairwise (· < ·) :=
  (of_decide_eq_true ht).sublist (List.filter_sublist.map _)

theorem scanNext_of_few {found : List (Nat × SymCode)} (h : found.length < 20) : scanNext found = 1024 :=
  if_neg (Nat.ne_of_lt h)

/-- The next slot follows the one of the twentieth code. -/
theorem scanNext_of_full {found : List (Nat × SymCode)} (h : found.length = 20) :
    ∃ last, found.getLast? = some last ∧ scanNext found = last.1 + 1 := by
  cases hlast : found.getLast? with
  | none => rw [List.getLast?_eq_none_iff.mp hlast] at h; cases h
  | some last => exact ⟨last, rfl, by rw [scanNext, if_pos h, hlast]; rfl⟩

/-- What a scan collects: every symbol that passes, from the start slot to below the next slot. -/
theorem mem_scanFrom (ht : tableRising s.symbols = true) (hf : filter ≤ 2)
    (hslots : ∀ k r, s.symbol? k = some r → k < 1024) {k : Nat} {c : SymCode} :
    (k, c) ∈ scanFrom s.symbols start filter ↔ start ≤ k ∧ k < scanNext (scanFrom s.symbols start filter) ∧
      ∃ r, s.symbol? k = some r ∧ r.code = c ∧ (filter = 1 → r.stale = true) ∧ (filter = 2 → r.halted = true) := by
  have hnext (r : SymbolRec) : (k, r) ∈ (scanned s.symbols start filter).take 20 ↔
      (k, r) ∈ scanned s.symbols start filter ∧ k < scanNext (scanFrom s.symbols start filter) := by
    have hlength : (scanFrom s.symbols start filter).length = min 20 (scanned s.symbols start filter).length := by
      rw [scanFrom_eq, List.length_map, List.length_take]
    rcases Nat.lt_or_ge (scanned s.symbols start filter).length 20 with hfew | hmany
    · rw [List.take_of_length_le hfew.le, scanNext_of_few (by omega), iff_self_and]
      intro hmem
      obtain ⟨-, hfind, -⟩ := (mem_scanned ht hf).mp hmem
      exact hslots k r hfind
    · obtain ⟨last, hlast, hnext⟩ := scanNext_of_full (found := scanFrom s.symbols start filter) (by omega)
      rw [scanFrom_eq, List.getLast?_map, Option.map_eq_some_iff] at hlast
      obtain ⟨record, hlast, rfl⟩ := hlast
      rw [hnext]
      exact mem_take_iff_le (scanned_rising ht) hlast
  rw [scanFrom_eq, List.mem_map, ← scanFrom_eq]
  constructor
  · rintro ⟨⟨j, r⟩, hr, heq⟩
    cases heq
    obtain ⟨hmem, hlt⟩ := (hnext r).mp hr
    obtain ⟨hstart, hfind, hpass⟩ := (mem_scanned ht hf).mp hmem
    exact ⟨hstart, hlt, r, hfind, rfl, hpass⟩
  · rintro ⟨hstart, hlt, r, hfind, rfl, hpass⟩
    exact ⟨(k, r), (hnext r).mpr ⟨(mem_scanned ht hf).mpr ⟨hstart, hfind, hpass⟩, hlt⟩, rfl⟩

end

/-- Settles O45: the reports by the bytes of their fields, the scan by the symbols it collects (`mem_scanFrom`). -/
theorem identAndSymbolQueriesReport : Obligations.IdentAndSymbolQueriesReport := by
  intro tag b s
  refine ⟨fun h => answers_data h rfl ?_, fun h hlen => ⟨fun hnone => ?_, fun slot r hfound => ?_⟩,
    fun h hlen => ⟨fun hbad => ?_, fun hf ht hslots => ?_⟩⟩
  · exact congrArg (fun d => (s, okWith d)) (by decide)
  · exact answers_refused .noSymbol h (by rw [hlen]; rfl) (withSymbol_none hnone _)
  · refine answers_data h (by rw [hlen]; rfl) ((withSymbol_some hfound _).trans ?_)
    have hseq : (r.lastSeq.map BitVec.toNat).getD 0 = (r.lastSeq.getD 0).toNat := by cases r.lastSeq <;> rfl
    simp only [symbolReport, boolByte_eq, hseq, priceField, Config.absentPrice, List.append_assoc, List.cons_append,
      List.nil_append]
  · exact answers_refused .badParam h (by rw [hlen]; rfl) (if_pos hbad)
  · refine ⟨scanFrom s.symbols (field b 0 2) (field b 2 1), scanNext (scanFrom s.symbols (field b 0 2) (field b 2 1)),
      answers_data h (by rw [hlen]; rfl) (if_neg (Nat.not_lt.mpr hf)), ?_, ?_, fun hfew => ?_, fun hmany => ?_,
      fun k c => mem_scanFrom ht hf hslots⟩
    · rw [scanFrom_eq, List.map_map]
      exact (scanned_rising ht).sublist ((List.take_sublist _ _).map _)
    · rw [scanFrom_eq, List.length_map]
      exact List.length_take_le _ _
    · exact scanNext_of_few hfew
    · exact scanNext_of_full hmany

end Sys2Proof.Machine

namespace Sys2Proof.Machine

/-! ### The generations after the soft reset (R52) -/

section
variable {p : Pool} {s : State}

theorem Pool.bump_rising (h : tableRising p.generations = true) (slot : Nat) :
    tableRising (p.bump slot).generations = true := by
  unfold Pool.bump
  dsimp only
  split
  · exact tableRising_erase h
  · exact tableRising_put h

/-- Generations raised for distinct slots one after another: each is raised once. -/
theorem Pool.generation_bumps {ks : List Nat} (hks : ks.Nodup) (h : tableRising p.generations = true) (j : Nat) :
    (ks.foldl Pool.bump p).generation j = if j ∈ ks then (p.generation j + 1) % 32 else p.generation j := by
  induction ks generalizing p with
  | nil => rfl
  | cons k ks ih =>
    obtain ⟨hk, hks⟩ := List.nodup_cons.mp hks
    rw [List.foldl_cons, ih hks (Pool.bump_rising h k), Pool.generation_bump h]
    by_cases hj : j = k
    · subst hj
      rw [if_neg hk, if_pos rfl, if_pos (List.mem_cons_self ..)]
    · rw [if_neg hj]
      simp only [List.mem_cons, hj, false_or]

theorem tableFind_isSome {α : Type} {t : Table α} (ht : tableRising t = true) {k : Nat} :
    (tableFind t k).isSome = true ↔ k ∈ t.map Prod.fst := by
  simp only [Option.isSome_iff_exists, tableFind_iff_mem ht, List.mem_map, Prod.exists, exists_and_right, exists_eq_right]

theorem Pool.softReset_generation (hitems : tableRising p.items = true) (h : tableRising p.generations = true)
    (slot : Nat) : p.softReset.generation slot =
      if (tableFind p.items slot).isSome then (p.generation slot + 1) % 32 else p.generation slot := by
  have hslots : (p.items.map Prod.fst).Nodup := (of_decide_eq_true hitems).imp Nat.ne_of_lt
  rw [Pool.softReset, Pool.generation_bumps hslots (by exact h)]
  simp only [tableFind_isSome hitems]
  rfl

/-- Settles O10: the soft reset, block by block. -/
theorem deviceResetActsOnEveryBlock : Obligations.DeviceResetActsOnEveryBlock := by
  intro e tag s h
  have hexec : exec (.deviceReset e tag []) s = .next ((s.elapse e).softReset.answered 0x02 tag 0x00 []) :=
    answers_ok (s := s.elapse e) h rfl rfl
  refine ⟨(s.elapse e).softReset, hexec, rfl, ?_, rfl, rfl, fun i => ?_, Pool.softReset_items _,
    fun hitems hgenerations slot => Pool.softReset_generation hitems hgenerations slot, rfl, rfl, rfl, rfl, rfl, rfl,
    rfl, rfl⟩
  · show (s.elapse e).clock.softReset = _
    rw [FrameClock.softReset]
    cases hsource : s.clock.source <;> simp [State.elapse, hsource]
  · show (s.lanes.map Lane.softReset)[i] = _
    rw [Fin.getElem_fin, Vector.getElem_map]
    rfl

end

end Sys2Proof.Machine

namespace Sys2Proof.Machine

/-! ### Requests at rest (R172) -/

/-- Settles O3: a command of a listed kind is its frame served (`exec_request`), and UNKNOWN_KIND is answered as a frame
in hand is (`execUnknownKind_eq`). The ticks that pass touch neither RESET nor the link, so at rest both find the frame
in hand, and otherwise neither does. -/
theorem requestsActWhenInHandOrAtRest : Obligations.RequestsActWhenInHandOrAtRest := by
  intro c k t b s hreq hunlisted
  by_cases hc : c = .unknownKind k t b
  · subst hc
    have hk : bodyLengths k = none := hunlisted k t b rfl
    refine ⟨fun hrest => ?_, fun hh hr => ?_⟩
    · have hheld : (s.withLink { s.link with decoder := some { kind := k, tag := t, body := b } }).holds k t b := rfl
      rw [execUnknownKind_eq, execUnknownKind_eq, if_pos hk, if_pos hk, State.inHand_eq_of_rests hrest,
        State.inHand_of_holds hheld]
      rfl
    · rw [execUnknownKind_eq, if_pos hk, State.inHand_eq_none hh hr]
      rfl
  · refine ⟨fun hrest => ?_, fun hh hr => ?_⟩
    · rw [exec_request hreq hc, exec_request hreq hc, serve_rests (s := s.elapse (passedBefore c)) hrest]
      rfl
    · rw [exec_request hreq hc, serve_none (State.inHand_eq_none (s := s.elapse (passedBefore c)) hh hr)]

/-! ### Rules that leave the waiting commands alone -/

/-- The commands that wait in t are those that wait in s. -/
def KeepsWaiting (s t : State) : Prop := t.pending = s.pending

/-- A rule that leaves the waiting commands alone, whatever its request carries. -/
def RuleKeepsWaiting (rule : List Byte → State → State × Reply) : Prop := ∀ b s, KeepsWaiting s (rule b s).1

section
variable {s t u : State} {b : List Byte} {p : Prop} [Decidable p]

theorem KeepsWaiting.trans (a : KeepsWaiting s t) (b : KeepsWaiting t u) : KeepsWaiting s u := Eq.trans b a

theorem KeepsWaiting.ite (ht : KeepsWaiting s t) (hu : KeepsWaiting s u) : KeepsWaiting s (if p then t else u) := by
  split <;> assumption

/-- A request refused on a check, or answered otherwise. -/
theorem KeepsWaiting.choice {x y : State × Reply} (hx : KeepsWaiting s x.1) (hy : KeepsWaiting s y.1) :
    KeepsWaiting s (if p then x else y).1 := by
  split <;> assumption

/-! Lane and cue requests -/

theorem laneSetupRule_keepsWaiting : RuleKeepsWaiting laneSetupRule := fun _ _ => withLane_keeps rfl fun _ =>
  .choice rfl (by
    split
    · rfl
    · exact .choice rfl rfl)

theorem startNow_keepsWaiting (i : LaneId) : KeepsWaiting s (startNow s i).1 := by
  unfold startNow
  dsimp only
  split
  · exact (LaneWork.startFrom s i _).pending
  · exact (LaneWork.startFrom s i _).pending
  · exact (LaneWork.startArmed s i).pending
  · exact .choice rfl rfl
  all_goals rfl

theorem armRule_keepsWaiting (i : LaneId) (code gpi mask : Nat) : KeepsWaiting s (armRule s i code gpi mask).1 := by
  unfold armRule
  split
  · rfl
  · split <;> rfl

theorem laneStopRule_keepsWaiting (late : LaneSet) : RuleKeepsWaiting (laneStopRule late) := fun _ _ =>
  withLane_keeps rfl fun _ => by
    split
    · rfl
    · split
      · rename_i h
        exact (LaneWork.applyStop h).pending
      · rfl

theorem cueSetRule_keepsWaiting : RuleKeepsWaiting cueSetRule := fun _ _ => withCue_keeps rfl fun _ _ =>
  .choice rfl (by
    split
    · rfl
    · split <;> rfl)

/-! Item requests -/

theorem makeItem_keepsWaiting (i : LaneId) (off : Nat) (ink : Fin 16) (x : Content) (place : Nat → Lane → Lane) :
    KeepsWaiting s (makeItem s i b off ink x place).1 := by
  unfold makeItem
  split
  · rfl
  · exact (LaneWork.addReference _ x).pending

theorem itemAppendRule_keepsWaiting : RuleKeepsWaiting itemAppendRule := fun _ _ => withLane_keeps rfl fun i =>
  .choice rfl (by
    split
    · rfl
    · split
      · rfl
      · exact makeItem_keepsWaiting i _ _ _ _)

theorem itemInsertRule_keepsWaiting : RuleKeepsWaiting itemInsertRule := fun _ _ => withLane_keeps rfl fun i =>
  .choice rfl (by
    split
    · rfl
    · split
      · rfl
      · split
        · rfl
        · exact makeItem_keepsWaiting i _ _ _ _)

theorem itemReplaceRule_keepsWaiting : RuleKeepsWaiting itemReplaceRule := fun _ _ => withItem_keeps rfl fun _ _ =>
  .choice rfl (by
    split
    · rfl
    · refine .choice rfl ?_
      split
      · rfl
      · exact ((LaneWork.addReference _ _).trans (.dropReference _ _)).pending)

/-! Symbol, template, text and face requests -/

theorem symDefineRule_keepsWaiting : RuleKeepsWaiting symDefineRule := fun _ _ => by
  unfold symDefineRule
  dsimp only
  split
  · rfl
  · refine .choice rfl (.choice rfl ?_)
    split <;> rfl

theorem symPriceRule_keepsWaiting : RuleKeepsWaiting symPriceRule := fun _ _ => withSymbol_keeps rfl fun k _ =>
  .choice rfl (.choice rfl (.choice rfl (Eq.trans (LaneWork.offerView _ k).pending (KeepsWaiting.ite rfl rfl))))

theorem templateSetRule_keepsWaiting : RuleKeepsWaiting templateSetRule := fun _ _ => by
  unfold templateSetRule
  split
  · exact .choice rfl (.choice rfl rfl)
  · rfl

theorem textWriteRule_keepsWaiting : RuleKeepsWaiting textWriteRule := fun _ _ => by
  unfold textWriteRule
  dsimp only
  split
  · rfl
  · exact .choice rfl (.choice rfl rfl)

theorem faceSetupRule_keepsWaiting : RuleKeepsWaiting faceSetupRule := fun _ _ => by
  unfold faceSetupRule
  dsimp only
  split
  · rfl
  · exact .choice rfl (.choice rfl (.choice rfl rfl))

theorem glyphContinue_keepsWaiting (k : Fin 4) (code offset : Nat) (data : List Byte) :
    KeepsWaiting s (glyphContinue s k code offset data).1 := by
  unfold glyphContinue
  dsimp only
  split
  · rfl
  · exact .choice rfl (.choice rfl rfl)

theorem glyphLoadRule_keepsWaiting : RuleKeepsWaiting glyphLoadRule := fun _ _ => by
  unfold glyphLoadRule
  split
  · rfl
  · exact .choice rfl (.choice (.choice rfl (.choice rfl (.choice rfl rfl))) (glyphContinue_keepsWaiting ..))

/-! Clock requests -/

theorem timingSetupRule_keepsWaiting (order : FrameOrder) : RuleKeepsWaiting (timingSetupRule order) := fun b s => by
  obtain ⟨c, h | h⟩ := timingSetupRule_cases order b s
  · rw [h]; rfl
  · rw [h]; exact (FrameKeeps.frameStart _ order _).pending

end

/-- Every request's rule leaves the waiting commands alone: a rule refuses, sets fields of its own block, or does the work
of lanes, symbols and the Formatter (`LaneWork`) or of a frame start (`FrameKeeps`). -/
theorem requestRule_keepsWaiting (c : Instr) : RuleKeepsWaiting (requestRule c) := by
  intro b s
  cases c with
  | eventEnable | eventRead => exact withGroup_keeps rfl fun _ => rfl
  | laneSpeed | holdRelease => exact withLane_keeps rfl fun _ => .choice rfl rfl
  | laneStage => exact withLane_keeps rfl fun _ => .choice rfl (.choice rfl (.choice rfl rfl))
  | laneQuery | runList => exact withLane_keeps rfl fun _ => rfl
  | itemPasses | itemQuery => exact withItem_keeps rfl fun _ _ => rfl
  | cueClear => exact withCue_keeps rfl fun _ _ => .choice rfl rfl
  | cueQuery => exact withCue_keeps rfl fun _ _ => rfl
  | symRemove => exact withSymbol_keeps rfl fun _ _ => .choice rfl rfl
  | symQuery => exact withSymbol_keeps rfl fun _ _ => rfl
  | symScan => exact .choice rfl rfl
  | textCreate => exact .choice rfl (.choice rfl (.choice rfl rfl))
  | runClear => exact withLane_keeps rfl fun _ => (LaneWork.freeItems s _).pending
  | laneOff => exact withLane_keeps rfl fun _ => .choice (LaneWork.freeItems s _).pending rfl
  | laneReset => exact withLane_keeps rfl fun _ => .choice rfl (LaneWork.freeItems s _).pending
  | itemRemove => exact withItem_keeps rfl fun k _ => .choice rfl (LaneWork.freeItem s k).pending
  | symReference | symHalt => exact withSymbol_keeps rfl fun k _ => .choice rfl (LaneWork.offerView _ k).pending
  | symResume => exact withSymbol_keeps rfl fun k _ => .choice (LaneWork.offerView _ k).pending rfl
  | laneStart =>
    exact withLane_keeps rfl fun i => .choice rfl (.choice (startNow_keepsWaiting i) (armRule_keepsWaiting i _ _ _))
  | laneSetup => exact laneSetupRule_keepsWaiting b s
  | laneStop late => exact laneStopRule_keepsWaiting late b s
  | cueSet => exact cueSetRule_keepsWaiting b s
  | itemAppend => exact itemAppendRule_keepsWaiting b s
  | itemInsert => exact itemInsertRule_keepsWaiting b s
  | itemReplace => exact itemReplaceRule_keepsWaiting b s
  | symDefine => exact symDefineRule_keepsWaiting b s
  | symPrice => exact symPriceRule_keepsWaiting b s
  | templateSet => exact templateSetRule_keepsWaiting b s
  | textWrite => exact textWriteRule_keepsWaiting b s
  | faceSetup => exact faceSetupRule_keepsWaiting b s
  | glyphLoad => exact glyphLoadRule_keepsWaiting b s
  | timingSetup _ order => exact timingSetupRule_keepsWaiting order b s
  | eventPriority => exact withGroup_keeps rfl fun _ => by split <;> rfl
  | textFree | paletteSet =>
    dsimp only [requestRule, textFreeRule, paletteSetRule]
    split
    · rfl
    · exact .choice rfl rfl
  | eventNext | attnMask | classSetup | templateQuery | gpiSetup | outputSetup | outputResume =>
    dsimp only [requestRule, eventNextRule, attnMaskRule, classSetupRule, templateQueryRule, gpiSetupRule,
      outputSetupRule, outputResumeRule]
    split <;> rfl
  | _ => rfl

/-! ### Commands that leave the waiting commands alone -/

section
variable {s t : State} {k tag : Byte} {b : List Byte} {rule : List Byte → State → State × Reply}

theorem inHand_keepsWaiting {f : Frame} (h : s.inHand f = some t) : KeepsWaiting s t := by
  unfold State.inHand at h
  split at h <;> split at h <;> cases h <;> rfl

theorem serve_keepsWaiting (hr : RuleKeepsWaiting rule) (s : State) : KeepsWaiting s (serve k tag b rule s) := by
  unfold serve
  split
  · rfl
  · rename_i u hu
    exact (inHand_keepsWaiting hu).trans (.ite (hr b u) rfl)

theorem dropFrame_keepsWaiting (s : State) : KeepsWaiting s s.dropFrame := by
  unfold State.dropFrame
  split <;> rfl

/-- Bytes are examined in whatever state the waiting commands are, and leave them so. -/
theorem examine_keepsWaiting (tick fuel : Nat) (bs : List Byte) (s : State) :
    KeepsWaiting s (State.examine tick fuel bs s) :=
  have h : State.examine tick fuel bs s = { State.examine tick fuel bs s with pending := s.pending } :=
    State.examine_pending tick fuel bs s s.pending
  Eq.trans (congrArg State.pending h) rfl

theorem windowEnd_keepsWaiting (s : State) (order : FrameOrder) : KeepsWaiting s (s.windowEnd order) :=
  .ite (FrameKeeps.frameStart s order _).pending rfl

theorem countPulse_keepsWaiting (s : State) (order : FrameOrder) : KeepsWaiting s (s.countPulse order) :=
  .ite (.ite (FrameKeeps.frameStart _ order _).pending rfl) rfl

theorem pulseAt_keepsWaiting (s : State) (order : FrameOrder) : KeepsWaiting s (s.pulseAt order) := by
  unfold State.pulseAt
  split
  · rfl
  case h_2 | h_3 => exact countPulse_keepsWaiting s order
  · refine .ite ?_ (.ite (FrameKeeps.frameStart _ order _).pending rfl)
    have hwindow := windowEnd_keepsWaiting { s with clock := { s.clock with now := s.clock.windowDue } } order
    exact hwindow.trans (countPulse_keepsWaiting _ order)

theorem countedChange_keepsWaiting (s : State) (late : LaneSet) (n : GpiId) :
    KeepsWaiting s (s.countedChange late n) := by
  rw [countedChange_rest]; rfl

theorem levelChange_keepsWaiting (s : State) (n : GpiId) : KeepsWaiting s (s.levelChange n) :=
  .ite rfl (KeepsWaiting.ite (countedChange_keepsWaiting s 0 n) rfl)

theorem concludeRefresh_keepsWaiting (s : State) (f : Formatting) : KeepsWaiting s (s.concludeRefresh f) := by
  unfold State.concludeRefresh
  refine .ite rfl ?_
  split
  · rfl
  · split
    · rfl
    · exact .ite rfl rfl

/-- A request answers a next state and leaves the waiting commands alone. -/
theorem exec_request_keepsWaiting {c : Instr} (h : requestFrame c = some (k, tag, b)) (s : State) :
    ∃ t, exec c s = .next t ∧ KeepsWaiting s t := by
  by_cases hc : c = .unknownKind k tag b
  · subst hc
    refine ⟨_, execUnknownKind_eq k tag b s, .ite ?_ rfl⟩
    cases hu : s.inHand { kind := k, tag := tag, body := b } with
    | none => rfl
    | some u =>
      have hhand : KeepsWaiting s u := inHand_keepsWaiting hu
      exact hhand
  · exact ⟨_, exec_request h hc s, serve_keepsWaiting (requestRule_keepsWaiting c) (s.elapse (passedBefore c))⟩

end

/-- Settles O2: a request is its frame served (`exec_request_keepsWaiting`); every other command is an event, whose parts
leave the waiting commands alone. -/
theorem commandsAnswerAndKeepTheQueue : Obligations.CommandsAnswerAndKeepTheQueue := by
  intro c s
  show ∃ t, exec c s = .next t ∧ KeepsWaiting s t
  cases hreq : requestFrame c with
  | some frame => exact exec_request_keepsWaiting hreq s
  | none =>
    cases c with
    | decoderTake | replySent | powerOnReset => exact ⟨_, rfl, rfl⟩
    | receiveByte e x =>
      refine ⟨_, rfl, .ite rfl (KeepsWaiting.trans ?_ (examine_keepsWaiting _ _ _ _))⟩
      exact .ite (dropFrame_keepsWaiting (s.elapse e)) rfl
    | byteError e => exact ⟨_, rfl, .ite rfl (dropFrame_keepsWaiting (s.elapse e))⟩
    | interByteTimeout =>
      refine ⟨_, rfl, ?_⟩
      split
      · rfl
      · exact dropFrame_keepsWaiting _
    | framePeriodExpiry order => exact ⟨_, rfl, .ite rfl (FrameKeeps.frameStart s order _).pending⟩
    | windowExpiry order => exact ⟨_, rfl, windowEnd_keepsWaiting s order⟩
    | referencePulse e order => exact ⟨_, rfl, pulseAt_keepsWaiting (s.elapse e) order⟩
    | armedStart i => exact ⟨_, rfl, .ite (LaneWork.startArmed s i).pending rfl⟩
    | holdDwellExpiry i => exact ⟨_, rfl, .ite rfl rfl⟩
    | symbolStale slot => exact ⟨_, rfl, (LaneWork.checkSymbol s slot).pending⟩
    | compositionComplete =>
      refine ⟨_, rfl, ?_⟩
      split <;> rfl
    | refreshTake => exact ⟨_, rfl, (LaneWork.takeRefresh s).pending⟩
    | refreshComplete =>
      show ∃ t, execRefreshComplete s = .next t ∧ KeepsWaiting s t
      unfold execRefreshComplete
      split
      · exact ⟨_, rfl, rfl⟩
      · exact ⟨_, rfl, (concludeRefresh_keepsWaiting s _).trans (LaneWork.takeRefresh _).pending⟩
    | gpiLevelChange e n => exact ⟨_, rfl, levelChange_keepsWaiting (s.elapse e) n⟩
    | gpiDebounceExpiry n late =>
      refine ⟨_, rfl, ?_⟩
      split
      · rfl
      · exact countedChange_keepsWaiting _ late n
    | _ => cases hreq

end Sys2Proof.Machine
